-- ==== Sys2Proof/Word.lean ====
section
/-! DEFINITION. The word types of the block: bytes, the four encoded formats, the two raw counts and binary32 bit
patterns. Everything else that is not a word in the spec (counts, coordinates, positions) is a `Nat`. -/

namespace Sys2Proof

/-- An 8-bit value (00_scope R12: bit 0 is the least significant). -/
abbrev Byte := BitVec 8

/-- A host command word, format H32 (30_encoding R81). -/
abbrev H32 := BitVec 32

/-- A wire word, format W16 (30_encoding R86). -/
abbrev W16 := BitVec 16

/-- A sensor command, format S24 (30_encoding R90). -/
abbrev S24 := BitVec 24

/-- A sensor reply read as one value, format R48 (30_encoding R91). -/
abbrev R48 := BitVec 48

/-- A raw count, 20 bits unsigned (10_state R29). -/
abbrev Raw := BitVec 20

/-- The bit pattern of a binary32 value (00_scope R17). -/
abbrev F32 := BitVec 32

/-- A device address on the two-wire bus, 7 bits (00_scope R10). -/
abbrev BusAddr := BitVec 7

end Sys2Proof
end

