-- ==== Sys2Proof/Config.lean ====
section
/-! DEFINITION. The parameters of the block (00_scope R10): the numeric literals of the source and the values the spec
decided for it, as named constants; the OPEN parameters, as constants without a body; and the free values of the three
oracles (00_scope R11), as constants without a body applied to the number of the question. -/

namespace Sys2Proof

/-- The three output lines (20_memory R51). -/
inductive Line where
  | data
  | clk
  | cs
deriving DecidableEq, Repr

/-- A level the block can drive a line to (00_scope R15). -/
inductive Level where
  | low
  | high
deriving DecidableEq, Repr

/-- How the final scale and offset are evaluated (00_scope R10, 93 U16). -/
inductive FloatEval where
  /-- One binary32 rounding for each operation, in the written order. -/
  | f32Stepwise
  /-- The binary32 value nearest the exact rational: one rounding in all. -/
  | exactThenRound
deriving DecidableEq, Repr

/-- The six reply bytes RX[0] to RX[5] (10_state R28). -/
structure Reply where
  b0 : Byte
  b1 : Byte
  b2 : Byte
  b3 : Byte
  b4 : Byte
  b5 : Byte
deriving DecidableEq, Repr

namespace Config

/-- `N_MAX`, the largest module count (00_scope R10). -/
def nMax : Nat := 16

/-- `ROWS`, the height of a module (00_scope R10). -/
def rows : Nat := 8

/-- `COLS`, the width of a module (00_scope R10). -/
def cols : Nat := 8

/-- `T_INIT_MS` (00_scope R10). -/
def tInitMs : Nat := 300

/-- `T_MEAS_MS` (00_scope R10). -/
def tMeasMs : Nat := 100

/-- `CMD_INIT` (00_scope R10, 43_sensor R203). -/
def cmdInit : List Byte := [0xE1#8, 0x08#8, 0x00#8]

/-- `CMD_TRIGGER` (00_scope R10, 43_sensor R204). -/
def cmdTrigger : List Byte := [0xAC#8, 0x33#8, 0x00#8]

/-- `REPLY_LEN` (00_scope R10). -/
def replyLen : Nat := 6

/-- `CLAIM_LEVEL`, the level of a line just after it is claimed (00_scope R10, D2). -/
def claimLevel : Level := .low

/-- `OP_NOOP` (30_encoding R87, D7). -/
def opNoop : Byte := 0x00#8

/-- `OP_ROW0` (30_encoding R87, D7). -/
def opRow0 : Byte := 0x01#8

/-- The register-select value of row `r` (30_encoding R87). -/
def opRow (r : Nat) : Byte := opRow0 + BitVec.ofNat 8 r

/-- `OP_DECODE` (30_encoding R87, D7). -/
def opDecode : Byte := 0x09#8

/-- `OP_INTENSITY` (30_encoding R87, D7). -/
def opIntensity : Byte := 0x0A#8

/-- `OP_POWER` (30_encoding R87, D7). -/
def opPower : Byte := 0x0C#8

/-- The data byte of the no-operation word (30_encoding R87). -/
def dataNoop : Byte := 0x00#8

/-- `DATA_DECODE_RAW` (30_encoding R87). -/
def dataDecodeRaw : Byte := 0x00#8

/-- `DATA_POWER_ON` (30_encoding R87). -/
def dataPowerOn : Byte := 0x01#8

/-- The register address a module reads from a register-select byte: its low four bits (30_encoding R86). -/
def regAddr (op : Byte) : Nat := (op.extractLsb' 0 4).toNat

/-- `FLOAT_EVAL` (00_scope R10, D16). -/
def floatEval : FloatEval := .f32Stepwise

/-- `SENSOR_ADDR`, an OPEN parameter (00_scope R10, D15): no value can be proved of it. -/
opaque sensorAddr : BusAddr

/-- `SENSOR_BUS`, an OPEN opaque identifier (00_scope R10, D23). The one bus every `twWrite` and `twRead` goes to. -/
opaque sensorBus : Nat

/-- `DEVICE`, an OPEN opaque identifier (00_scope R10, D23). -/
opaque device : Nat

/-- `PIN_DATA`, an OPEN opaque identifier (00_scope R10, D23). -/
opaque pinData : Nat

/-- `PIN_CS`, an OPEN opaque identifier (00_scope R10, D23). -/
opaque pinCs : Nat

/-- `PIN_CLK`, an OPEN opaque identifier (00_scope R10, D23). -/
opaque pinClk : Nat

/-- PinOracle (00_scope R11): the answer to its question number `k` since reset, `true` for `ok`. FREE VALUE (93 U12). -/
opaque pinOracle (k : Nat) : Bool

/-- BusOracle's answer to its write question number `k` since reset, `true` for `ok`. FREE VALUE (93 U11). -/
opaque busWriteOracle (k : Nat) (addr : BusAddr) (bytes : List Byte) : Bool

/-- BusOracle's answer to its read question number `k` since reset: `none` for `fail`, or six bytes. FREE VALUE
(93 U11). -/
opaque busReadOracle (k : Nat) (addr : BusAddr) : Option Reply

/-- The pixel source of DRAW number `k` since reset: the intensity of pixel `(x, y)` (00_scope R11). FREE VALUE. -/
opaque pixelSource (k : Nat) (x y : Nat) : Byte

end Config

end Sys2Proof
end

