-- ==== Sys2Proof/Syntax.lean ====
section
/-! DEFINITION. The abstract commands: one constructor of `Instr` for each of the 22 rows of the opcode table
(30_encoding R96), and the issued words they are read from. -/

namespace Sys2Proof

/-- An encoded item in one of the four formats (30_encoding R80). The host issues H32 words only; items of the other
formats are the block's own and run alone only on the bench (log entry 2). -/
inductive Issued where
  | h32 (w : H32)
  | w16 (w : W16)
  | s24 (w : S24)
  | r48 (w : R48)
deriving DecidableEq, Repr

/-- The instructions: the host operations (30_encoding R82), the wire words (R87), the sensor commands (R90) and the two
outcomes of a reply (R91, R96). -/
inductive Instr where
  /-- NEW, 42_display_operations R160. The count is any natural number (R161); a word carries those below 256. -/
  | new (count : Nat) (level : Byte)
  /-- BRIGHTNESS, 42_display_operations R162. -/
  | brightness (level : Byte)
  /-- CLEAR, 42_display_operations R163. -/
  | clear
  /-- DRAW, 42_display_operations R164. The pixel source is not a field (30_encoding R82). -/
  | draw
  /-- S_INIT, 43_sensor R205. -/
  | sInit
  /-- S_MEASURE, 43_sensor R206. -/
  | sMeasure
  /-- W_NOOP, 41_display_wire_commands R130. -/
  | wNoop
  /-- W_ROW0, 41_display_wire_commands R131. -/
  | wRow0 (dat : Byte)
  /-- W_ROW1, 41_display_wire_commands R131. -/
  | wRow1 (dat : Byte)
  /-- W_ROW2, 41_display_wire_commands R131. -/
  | wRow2 (dat : Byte)
  /-- W_ROW3, 41_display_wire_commands R131. -/
  | wRow3 (dat : Byte)
  /-- W_ROW4, 41_display_wire_commands R131. -/
  | wRow4 (dat : Byte)
  /-- W_ROW5, 41_display_wire_commands R131. -/
  | wRow5 (dat : Byte)
  /-- W_ROW6, 41_display_wire_commands R131. -/
  | wRow6 (dat : Byte)
  /-- W_ROW7, 41_display_wire_commands R131. -/
  | wRow7 (dat : Byte)
  /-- W_DECODE_RAW, 41_display_wire_commands R132. -/
  | wDecodeRaw
  /-- W_INTENSITY, 41_display_wire_commands R133. -/
  | wIntensity (level : Byte)
  /-- W_POWER_ON, 41_display_wire_commands R134. -/
  | wPowerOn
  /-- TW_CMD_INIT, 43_sensor R203. -/
  | twCmdInit
  /-- TW_CMD_TRIGGER, 43_sensor R204. -/
  | twCmdTrigger
  /-- R48_CALIBRATED, 30_encoding R96: a reply whose byte 0 has bit 3 set. -/
  | r48Calibrated (reply : Reply)
  /-- R48_UNCALIBRATED, 30_encoding R96: a reply whose byte 0 has bit 3 clear. -/
  | r48Uncalibrated (reply : Reply)
deriving DecidableEq, Repr

end Sys2Proof
end

