-- ==== Sys2Proof/WellFormed.lean ====
section
/-! DEFINITION. The static checks on an instruction: an operand a word can carry, a reply that is of its row. -/

namespace Sys2Proof

/-- Bit 3 of the status byte, the source's "calibrated" (30_encoding R92), as the opcode table splits the reply (R96). -/
def Reply.isCalibrated (r : Reply) : Bool := r.b0.getLsbD 3

/-- An instruction that some word stands for: NEW's count fits field `a` (30_encoding R83); a reply is of the row its
calibration bit selects (30_encoding R96). Every value of every other operand is admitted (R85, R88). -/
def wellFormed : Instr → Bool
  | .new count _ => decide (count < 256)
  | .brightness _ => true
  | .clear => true
  | .draw => true
  | .sInit => true
  | .sMeasure => true
  | .wNoop => true
  | .wRow0 _ => true
  | .wRow1 _ => true
  | .wRow2 _ => true
  | .wRow3 _ => true
  | .wRow4 _ => true
  | .wRow5 _ => true
  | .wRow6 _ => true
  | .wRow7 _ => true
  | .wDecodeRaw => true
  | .wIntensity _ => true
  | .wPowerOn => true
  | .twCmdInit => true
  | .twCmdTrigger => true
  | .r48Calibrated r => r.isCalibrated
  | .r48Uncalibrated r => !r.isCalibrated

end Sys2Proof
end

