-- ==== Sys2Proof/Decode.lean ====
section
/-! DEFINITION. The decoder of the four formats (30_encoding), total on every word and rejecting by name; the encoder,
written from the same tables; and the opcode table's rows as masks and matches (30_encoding R96). -/

namespace Sys2Proof

/-- Why a word stands for no instruction. -/
inductive Reject where
  /-- H32: `opc` is none of the six codes (30_encoding R85). -/
  | unknownOpcode
  /-- H32: the byte `z` is not zero (30_encoding R85). -/
  | reservedNotZero
  /-- H32: an operand field the operation does not use is not zero (30_encoding R85). -/
  | unusedOperandNotZero
  /-- W16: a word the block never sends (30_encoding R89). -/
  | notAWireCommand
  /-- S24: neither of the two sensor commands (30_encoding R90). -/
  | notASensorCommand
deriving DecidableEq, Repr

/-! ### The fields of the formats -/

/-- `opc`, bits 31 to 24 (30_encoding R81). -/
def h32Opc (w : H32) : Byte := w.extractLsb' 24 8

/-- `a`, bits 23 to 16 (30_encoding R81). -/
def h32A (w : H32) : Byte := w.extractLsb' 16 8

/-- `b`, bits 15 to 8 (30_encoding R81). -/
def h32B (w : H32) : Byte := w.extractLsb' 8 8

/-- `z`, bits 7 to 0 (30_encoding R81). -/
def h32Z (w : H32) : Byte := w.extractLsb' 0 8

/-- `sel`, bits 15 to 8 (30_encoding R86). -/
def w16Sel (w : W16) : Byte := w.extractLsb' 8 8

/-- `dat`, bits 7 to 0 (30_encoding R86). -/
def w16Dat (w : W16) : Byte := w.extractLsb' 0 8

/-- The six bytes of a reply value, `RX[0]` in bits 47 to 40 (30_encoding R91). -/
def replyOfWord (w : R48) : Reply where
  b0 := w.extractLsb' 40 8
  b1 := w.extractLsb' 32 8
  b2 := w.extractLsb' 24 8
  b3 := w.extractLsb' 16 8
  b4 := w.extractLsb' 8 8
  b5 := w.extractLsb' 0 8

/-- The reply as one value `RX[0] ++ … ++ RX[5]` (30_encoding R91). -/
def wordOfReply (r : Reply) : R48 := r.b0 ++ r.b1 ++ r.b2 ++ r.b3 ++ r.b4 ++ r.b5

/-! ### Decoding -/

/-- The operation a host word stands for (30_encoding R82, R83), or the first of R85's reasons that makes it illegal. -/
def decodeH32 (w : H32) : Except Reject Instr :=
  let a := h32A w
  let b := h32B w
  if h32Z w ≠ 0#8 then .error .reservedNotZero
  else if h32Opc w = 0x01#8 then .ok (.new a.toNat b)
  else if h32Opc w = 0x02#8 then
    if b = 0#8 then .ok (.brightness a) else .error .unusedOperandNotZero
  else if h32Opc w = 0x03#8 then
    if a = 0#8 ∧ b = 0#8 then .ok .clear else .error .unusedOperandNotZero
  else if h32Opc w = 0x04#8 then
    if a = 0#8 ∧ b = 0#8 then .ok .draw else .error .unusedOperandNotZero
  else if h32Opc w = 0x10#8 then
    if a = 0#8 ∧ b = 0#8 then .ok .sInit else .error .unusedOperandNotZero
  else if h32Opc w = 0x11#8 then
    if a = 0#8 ∧ b = 0#8 then .ok .sMeasure else .error .unusedOperandNotZero
  else .error .unknownOpcode

/-- The wire command a wire word stands for (30_encoding R87); every other word is one the block never sends (R89). -/
def decodeW16 (w : W16) : Except Reject Instr :=
  let dat := w16Dat w
  if w16Sel w = Config.opNoop then
    if dat = Config.dataNoop then .ok .wNoop else .error .notAWireCommand
  else if w16Sel w = Config.opRow 0 then .ok (.wRow0 dat)
  else if w16Sel w = Config.opRow 1 then .ok (.wRow1 dat)
  else if w16Sel w = Config.opRow 2 then .ok (.wRow2 dat)
  else if w16Sel w = Config.opRow 3 then .ok (.wRow3 dat)
  else if w16Sel w = Config.opRow 4 then .ok (.wRow4 dat)
  else if w16Sel w = Config.opRow 5 then .ok (.wRow5 dat)
  else if w16Sel w = Config.opRow 6 then .ok (.wRow6 dat)
  else if w16Sel w = Config.opRow 7 then .ok (.wRow7 dat)
  else if w16Sel w = Config.opDecode then
    if dat = Config.dataDecodeRaw then .ok .wDecodeRaw else .error .notAWireCommand
  else if w16Sel w = Config.opIntensity then .ok (.wIntensity dat)
  else if w16Sel w = Config.opPower then
    if dat = Config.dataPowerOn then .ok .wPowerOn else .error .notAWireCommand
  else .error .notAWireCommand

/-- The sensor command a 24-bit pattern stands for (30_encoding R90). -/
def decodeS24 (w : S24) : Except Reject Instr :=
  if w = 0xE10800#24 then .ok .twCmdInit
  else if w = 0xAC3300#24 then .ok .twCmdTrigger
  else .error .notASensorCommand

/-- The outcome a reply selects, by its bit 43 alone (30_encoding R96, 43_sensor R212). -/
def decodeR48 (w : R48) : Except Reject Instr :=
  if w.getLsbD 43 then .ok (.r48Calibrated (replyOfWord w)) else .ok (.r48Uncalibrated (replyOfWord w))

/-- Decoding an issued word by its format (30_encoding R80). -/
def decode : Issued → Except Reject Instr
  | .h32 w => decodeH32 w
  | .w16 w => decodeW16 w
  | .s24 w => decodeS24 w
  | .r48 w => decodeR48 w

/-! ### Encoding -/

/-- The H32 word with the given fields and `z = 0` (30_encoding R81). -/
def h32Word (opc a b : Byte) : H32 := opc ++ a ++ b ++ 0x00#8

/-- The W16 word with the given fields (30_encoding R86). -/
def w16Word (sel dat : Byte) : W16 := sel ++ dat

/-- Field `a` of a NEW. A count below 256 is the field's own value (30_encoding R83). For a count that no word carries the
spec gives no word; the field is 255, which is out of range as well, so that the word fails as the count does
(42_display_operations R161). DESIGN CHOICE (log entry 26). -/
def countField (count : Nat) : Byte := BitVec.ofNat 8 (min count 255)

/-- The issued word of an instruction (30_encoding R82, R87, R90, R91). -/
def encode : Instr → Issued
  | .new count level => .h32 (h32Word 0x01#8 (countField count) level)
  | .brightness level => .h32 (h32Word 0x02#8 level 0x00#8)
  | .clear => .h32 (h32Word 0x03#8 0x00#8 0x00#8)
  | .draw => .h32 (h32Word 0x04#8 0x00#8 0x00#8)
  | .sInit => .h32 (h32Word 0x10#8 0x00#8 0x00#8)
  | .sMeasure => .h32 (h32Word 0x11#8 0x00#8 0x00#8)
  | .wNoop => .w16 (w16Word Config.opNoop Config.dataNoop)
  | .wRow0 dat => .w16 (w16Word (Config.opRow 0) dat)
  | .wRow1 dat => .w16 (w16Word (Config.opRow 1) dat)
  | .wRow2 dat => .w16 (w16Word (Config.opRow 2) dat)
  | .wRow3 dat => .w16 (w16Word (Config.opRow 3) dat)
  | .wRow4 dat => .w16 (w16Word (Config.opRow 4) dat)
  | .wRow5 dat => .w16 (w16Word (Config.opRow 5) dat)
  | .wRow6 dat => .w16 (w16Word (Config.opRow 6) dat)
  | .wRow7 dat => .w16 (w16Word (Config.opRow 7) dat)
  | .wDecodeRaw => .w16 (w16Word Config.opDecode Config.dataDecodeRaw)
  | .wIntensity level => .w16 (w16Word Config.opIntensity level)
  | .wPowerOn => .w16 (w16Word Config.opPower Config.dataPowerOn)
  | .twCmdInit => .s24 0xE10800#24
  | .twCmdTrigger => .s24 0xAC3300#24
  | .r48Calibrated r => .r48 (wordOfReply r)
  | .r48Uncalibrated r => .r48 (wordOfReply r)

/-! ### The opcode table -/

/-- A row's mask and match: a word `w` of the row's width is the row's item when `w & mask = match` (30_encoding
R96). -/
structure TableRow where
  bits : Nat
  mask : Nat
  pattern : Nat
deriving DecidableEq, Repr

/-- The row of a wire command whose data byte is free (30_encoding R87, R96). -/
def w16FreeRow (sel : Byte) : TableRow := ⟨16, 0xFF00, (w16Word sel 0x00#8).toNat⟩

/-- The row of a wire command whose data byte is fixed (30_encoding R87, R96). -/
def w16FixedRow (sel dat : Byte) : TableRow := ⟨16, 0xFFFF, (w16Word sel dat).toNat⟩

/-- The row of the opcode table an instruction belongs to (30_encoding R96, opcode_table.json). -/
def tableRow : Instr → TableRow
  | .new _ _ => ⟨32, 0xFF0000FF, 0x01000000⟩
  | .brightness _ => ⟨32, 0xFF00FFFF, 0x02000000⟩
  | .clear => ⟨32, 0xFFFFFFFF, 0x03000000⟩
  | .draw => ⟨32, 0xFFFFFFFF, 0x04000000⟩
  | .sInit => ⟨32, 0xFFFFFFFF, 0x10000000⟩
  | .sMeasure => ⟨32, 0xFFFFFFFF, 0x11000000⟩
  | .wNoop => w16FixedRow Config.opNoop Config.dataNoop
  | .wRow0 _ => w16FreeRow (Config.opRow 0)
  | .wRow1 _ => w16FreeRow (Config.opRow 1)
  | .wRow2 _ => w16FreeRow (Config.opRow 2)
  | .wRow3 _ => w16FreeRow (Config.opRow 3)
  | .wRow4 _ => w16FreeRow (Config.opRow 4)
  | .wRow5 _ => w16FreeRow (Config.opRow 5)
  | .wRow6 _ => w16FreeRow (Config.opRow 6)
  | .wRow7 _ => w16FreeRow (Config.opRow 7)
  | .wDecodeRaw => w16FixedRow Config.opDecode Config.dataDecodeRaw
  | .wIntensity _ => w16FreeRow Config.opIntensity
  | .wPowerOn => w16FixedRow Config.opPower Config.dataPowerOn
  | .twCmdInit => ⟨24, 0xFFFFFF, 0xE10800⟩
  | .twCmdTrigger => ⟨24, 0xFFFFFF, 0xAC3300⟩
  | .r48Calibrated _ => ⟨48, 0x080000000000, 0x080000000000⟩
  | .r48Uncalibrated _ => ⟨48, 0x080000000000, 0x000000000000⟩

/-- The width of an issued word's format in bits (30_encoding R80). -/
def Issued.width : Issued → Nat
  | .h32 _ => 32
  | .w16 _ => 16
  | .s24 _ => 24
  | .r48 _ => 48

/-- An issued word as a number, bit 0 least significant (00_scope R12). -/
def Issued.toNat : Issued → Nat
  | .h32 w => w.toNat
  | .w16 w => w.toNat
  | .s24 w => w.toNat
  | .r48 w => w.toNat

/-- The issued word whose format has `nbits` bits and whose bits are `w`: the four widths are distinct, so the width
names the format (30_encoding R80). -/
def issuedOfBits (nbits w : Nat) : Option Issued :=
  if nbits = 32 then some (.h32 (BitVec.ofNat 32 w))
  else if nbits = 16 then some (.w16 (BitVec.ofNat 16 w))
  else if nbits = 24 then some (.s24 (BitVec.ofNat 24 w))
  else if nbits = 48 then some (.r48 (BitVec.ofNat 48 w))
  else none

/-- The instruction the decoder reads from a word numbered as the opcode table numbers its bits. -/
def decodeTableWord (nbits w : Nat) : Option Instr :=
  match issuedOfBits nbits w with
  | none => none
  | some q =>
    match decode q with
    | .ok i => some i
    | .error _ => none

end Sys2Proof
end

