-- ==== Sys2Proof/Machine/State.lean ====
section
/-! DEFINITION. The state of the block as plain data (10_state R20 to R37), with the reference receiver's state
(41_display_wire_commands R141), the model's own fields, and the reasons a step can stop. -/

namespace Sys2Proof.Machine

/-- `DISP`, the display handle (10_state R22). -/
inductive Disp where
  | absent
  | live
deriving DecidableEq, Repr

/-- `LINE[l].level`, the level the block last drove, or Unknown after a failed drive (10_state R23). -/
inductive LineLevel where
  | low
  | high
  | unknown
deriving DecidableEq, Repr

/-- `LINE[l]` (10_state R23). -/
structure LineState where
  owned : Bool
  level : LineLevel
deriving DecidableEq, Repr

/-- The three lines (20_memory R51). -/
structure Lines where
  data : LineState
  clk : LineState
  cs : LineState
deriving DecidableEq, Repr

/-- `CFG`, written by NEW and read-only afterwards (10_state R21). -/
structure Cfg where
  n : Nat
  device : Nat
  pinData : Nat
  pinCs : Nat
  pinClk : Nat
deriving DecidableEq, Repr

/-- `SNS`, the sensor driver's state (10_state R26). -/
inductive Sns where
  | uninitialized
  | ready
  | undefined
deriving DecidableEq, Repr

/-- The errors an operation can return (60_exceptions R280). -/
inductive Err where
  | countExceeded
  | connection
  | data
  | sensorInit
  | sensorMeasure
  | uncalibrated
deriving DecidableEq, Repr

/-- Why an operation is refused (60_exceptions R288). -/
inductive RefusedReason where
  | alreadyLive
  | noDisplay
  | sensorNotUninitialized
  | sensorNotReady
  | illegalCommand
deriving DecidableEq, Repr

/-- The result of an operation (00_scope R16). -/
inductive Result where
  /-- `Ok`. -/
  | ok
  /-- `Ok(temperature, humidity)`. -/
  | reading (temperature humidity : F32)
  /-- `Err(E)`. -/
  | err (e : Err)
  /-- `Refused(reason)`. -/
  | refused (reason : RefusedReason)
deriving DecidableEq, Repr

/-- The events of the observable trace (00_scope R15). -/
inductive Event where
  | claim (l : Line)
  | set (l : Line) (v : Level)
  | twWrite (addr : BusAddr) (bytes : List Byte)
  | twRead (addr : BusAddr) (n : Nat) (bytes : List Byte)
  | delay (ms : Nat)
deriving DecidableEq, Repr

/-- The coordinate `op` of SEQ: the operation in progress, or none (10_state R27). -/
inductive SeqOp where
  | idle
  | new
  | brightness
  | clear
  | draw
  | sInit
  | sMeasure
deriving DecidableEq, Repr

/-- The coordinate `phase` of SEQ (10_state R27); `none` in an operation without named phases. -/
inductive Phase where
  | none
  | claim
  | power
  | decode
  | clear
  | bright
  | build
  | write
  | cmd
  | settle
  | trigger
  | convert
  | read
  /-- The phase DECODE of S_MEASURE. -/
  | decodeReply
deriving DecidableEq, Repr

/-- The coordinate `s` of SEQ (10_state R27). -/
inductive SubStep where
  | csLow
  | data
  | clkHigh
  | clkLow
  | csHigh
deriving DecidableEq, Repr

/-- SEQ, the sequencer coordinates (10_state R27). -/
structure SeqPos where
  op : SeqOp
  phase : Phase
  i : Nat
  r : Nat
  b : Nat
  k : Nat
  s : SubStep
deriving DecidableEq, Repr

/-- SEQ between operations: no value (10_state R27). -/
def SeqPos.idle : SeqPos := ⟨.idle, .none, 0, 0, 0, 0, .csLow⟩

/-- The registers that live inside one operation (10_state R24, R25, R28 to R30, R33). -/
structure Scratch where
  /-- `FB[i][y]`, the frame buffer: one list of eight bytes for each module. -/
  fb : List (List Byte)
  /-- `TXBUF[b]`, the transfer buffer. -/
  txbuf : List Byte
  /-- `RX[0..5]`, the reply buffer. -/
  rx : Reply
  /-- `BUSY`. -/
  busy : Bool
  /-- `MODE`. -/
  mode : BitVec 2
  /-- `CAL`. -/
  cal : Bool
  /-- `HUM_RAW`. -/
  humRaw : Raw
  /-- `TEMP_RAW`. -/
  tempRaw : Raw
  /-- `HUM`. -/
  hum : F32
  /-- `TEMP`. -/
  temp : F32
deriving DecidableEq, Repr

/-- The registers of one operation while no operation runs: the spec gives them no value (10_state R36); empty buffers
and zeros stand for it. DESIGN CHOICE, unsafe (log entry 10). -/
def Scratch.empty : Scratch where
  fb := []
  txbuf := []
  rx := ⟨0, 0, 0, 0, 0, 0⟩
  busy := false
  mode := 0
  cal := false
  humRaw := 0
  tempRaw := 0
  hum := 0
  temp := 0

/-- The answers of one oracle as plain data: those a test has fixed for its next questions, and how many questions were
asked since reset. A question beyond the script is answered by the oracle's free value (log entries 5 to 7). -/
structure Feed (α : Type) where
  script : List α
  asked : Nat
deriving DecidableEq, Repr

/-- A feed at reset: nothing fixed, nothing asked. -/
def Feed.fresh (α : Type) : Feed α := ⟨[], 0⟩

/-- One lit pixel of a pixel source given as data. -/
structure Pixel where
  x : Nat
  y : Nat
  v : Byte
deriving DecidableEq, Repr

/-- `MOD[i]`, the registers of one matrix module as the reference receiver sees them; `none` is "unspecified"
(41_display_wire_commands R141). -/
structure MatrixModule where
  rows : List (Option Byte)
  decode : Option Byte
  intensity : Option (BitVec 4)
  power : Option Bool
deriving DecidableEq, Repr

/-- A module nothing is known of (41_display_wire_commands R141, 93 U8). -/
def MatrixModule.unspecified : MatrixModule := ⟨List.replicate 8 none, none, none, none⟩

/-- The reference receiver: an observer of the lines, outside the block (41_display_wire_commands R140 to R146). -/
structure Observer where
  /-- The level it sees on DATA. -/
  data : LineLevel
  /-- The level it sees on CLK. -/
  clk : LineLevel
  /-- The level it sees on CS. -/
  cs : LineLevel
  /-- `CHAIN`, the bit at the near end first; `none` and every bit not listed is unspecified (R141). -/
  chain : List (Option Bool)
  /-- How many bits were shifted in since a clock pulse that may or may not have been a rising edge (R142), while that
  pulse can still matter: until the chain has taken as many bits as it holds. -/
  doubt : Option Nat
  /-- `MOD[i]`, by chain position (R141). -/
  mods : List MatrixModule
  /-- It met a word the block never sends and stopped observing (R144, 93 U9). -/
  stuck : Bool
deriving DecidableEq, Repr

/-- The observer at reset: everything unspecified (41_display_wire_commands R141). -/
def Observer.unspecified : Observer :=
  ⟨.unknown, .unknown, .unknown, [], none, List.replicate Config.nMax MatrixModule.unspecified, false⟩

/-- The state of the machine. -/
structure State where
  /-- The words the host has issued and the block has not run yet, next first (log entry 1): host words, since the host
  can invoke nothing else (40_serial_port R117). -/
  inbox : List H32
  /-- An item of the opcode table placed from outside to run alone in the next step (log entry 2): no host word puts one
  here and no step of the block does. -/
  bench : Option Issued
  /-- `CFG`; `none` is the spec's "no value" before a successful NEW (10_state R21). -/
  cfg : Option Cfg
  /-- `DISP` (10_state R22). -/
  disp : Disp
  /-- `LINE[l]` (10_state R23). -/
  lines : Lines
  /-- The registers of one operation (10_state R33). -/
  scratch : Scratch
  /-- `SNS` (10_state R26). -/
  sns : Sns
  /-- `SEQ` (10_state R27). -/
  seq : SeqPos
  /-- `TRACE` (10_state R31), held newest event first; `State.trace` is the list in order (log entry 19). -/
  tape : List Event
  /-- The results answered since reset, oldest first (00_scope R16; log entry 29). -/
  results : List Result
  /-- The value `SEQ` had where the last error fell (10_state R27; log entry 18). -/
  lastCut : SeqPos
  /-- PinOracle's answers, `true` for `ok` (00_scope R11; log entry 5). -/
  pins : Feed Bool
  /-- BusOracle's answers to writes, `true` for `ok` (00_scope R11; log entry 6). -/
  busWrites : Feed Bool
  /-- BusOracle's answers to reads, `none` for `fail` (00_scope R11; log entry 6). -/
  busReads : Feed (Option Reply)
  /-- The pixel sources presented to the next DRAWs (00_scope R11; log entry 7). -/
  canvases : Feed (List Pixel)
  /-- The matrix modules as the reference receiver sees them (41_display_wire_commands R141). -/
  modules : Observer
deriving DecidableEq, Repr

/-- `TRACE`, the events since reset in order (10_state R31). -/
def State.trace (s : State) : List Event := s.tape.reverse

/-- The machine right after reset (10_state R36, 70_reset R320). The level of an unowned line is not meaningful: Unknown
stands for it (DESIGN CHOICE, log entry 9). -/
def State.reset : State where
  inbox := []
  bench := none
  cfg := none
  disp := .absent
  lines := ⟨⟨false, .unknown⟩, ⟨false, .unknown⟩, ⟨false, .unknown⟩⟩
  scratch := Scratch.empty
  sns := .uninitialized
  seq := SeqPos.idle
  tape := []
  results := []
  lastCut := SeqPos.idle
  pins := Feed.fresh Bool
  busWrites := Feed.fresh Bool
  busReads := Feed.fresh (Option Reply)
  canvases := Feed.fresh (List Pixel)
  modules := Observer.unspecified

/-- The reasons a step stops with a fault: a precondition of FRAME that the host's operations always meet is not met, so
the spec gives the wire command no effect. -/
inductive Fault where
  /-- Raised by a wire command while `CFG` has no value: the frame has no length (40_serial_port R114). Safe: it stops. -/
  | noChain
  /-- Raised by a wire command while the block does not own all three lines (40_serial_port R113, R114). Safe: it stops. -/
  | linkNotOwned
  /-- Raised by a wire command at a chain position outside `[0, CFG.N)` (40_serial_port R115). Safe: it stops. -/
  | positionOutOfRange
deriving DecidableEq, Repr

/-- The reasons a step has no meaning. -/
inductive Refusal where
  /-- Raised by an arm of `exec` that has no meaning yet. Safe: it stops. -/
  | notModelled (mnemonic : String)
  /-- Raised by a step that meets a W16 or S24 word the block never sends (30_encoding R89, R90). Safe: it stops. -/
  | neverSentWord
deriving DecidableEq, Repr

end Sys2Proof.Machine
end

