-- ==== Sys2Proof/Machine/Flags.lean ====
section
/-! DEFINITION. The three flags decoded from the status byte, the only flags of the block (10_state R28, 43_sensor R211).
Bits 4, 2, 1 and 0 have no name and are not read (30_encoding R92). -/

namespace Sys2Proof.Machine

/-- `BUSY`, bit 7 of the status byte. Decoded, never acted on (43_sensor R211). -/
def statusBusy (status : Byte) : Bool := status.getLsbD 7

/-- `MODE`, bits 6 and 5 of the status byte. Decoded, never acted on (43_sensor R211). -/
def statusMode (status : Byte) : BitVec 2 := status.extractLsb' 5 2

/-- `CAL`, bit 3 of the status byte (43_sensor R211, R212). -/
def statusCal (status : Byte) : Bool := status.getLsbD 3

end Sys2Proof.Machine
end

