-- ==== Sys2Proof/Machine/Float.lean ====
section
/-! DEFINITION. The binary32 arithmetic of the scaling stage (00_scope R17, 43_sensor R215, R216). Every value that occurs
is a dyadic rational, so rounding is exact integer arithmetic. -/

namespace Sys2Proof.Machine

/-- The rational number `num * 2 ^ exp`. -/
structure Dyad where
  num : Int
  exp : Int
deriving DecidableEq, Repr

/-- A natural number as a dyadic rational. -/
def Dyad.ofNat (n : Nat) : Dyad := ⟨n, 0⟩

/-- The exact product by a natural number. -/
def Dyad.mulNat (c : Nat) (d : Dyad) : Dyad := ⟨c * d.num, d.exp⟩

/-- The exact quotient by `2 ^ k`. -/
def Dyad.divPow2 (k : Nat) (d : Dyad) : Dyad := ⟨d.num, d.exp - k⟩

/-- The exact difference from a natural number. -/
def Dyad.subNat (d : Dyad) (c : Nat) : Dyad :=
  let e := min d.exp 0
  ⟨d.num * 2 ^ (d.exp - e).toNat - c * 2 ^ (0 - e).toNat, e⟩

/-- `m / 2 ^ k` rounded to the nearest integer, a half going to the even one (43_sensor R215, `RNE`). -/
def rneShift (m k : Nat) : Nat :=
  let q := m / 2 ^ k
  let r := m % 2 ^ k
  if 2 * r < 2 ^ k then q else if 2 ^ k < 2 * r then q + 1 else q + q % 2

/-- The number of bits of a natural number; 0 for 0. -/
def bitLength (m : Nat) : Nat := if m = 0 then 0 else m.log2 + 1

/-- The exponent of the last place of binary32 at a value: 24 significant bits, and no place below `2 ^ (-149)`. -/
def lastPlace (d : Dyad) : Int := max (d.exp + bitLength d.num.natAbs - 24) (-149)

/-- `fl(v)`: the binary32 value nearest to `v`, ties to the even significand (00_scope R17). The exponent has no upper
bound here: no value the block forms reaches `2 ^ 128` (log entry 21). -/
def fl (d : Dyad) : Dyad :=
  if lastPlace d ≤ d.exp then d
  else ⟨d.num.sign * rneShift d.num.natAbs (lastPlace d - d.exp).toNat, lastPlace d⟩

/-- The binary32 bit pattern of a value that `fl` gives; zero is `+0.0`, and a value of `2 ^ 128` or more in magnitude is
an infinity. -/
def Dyad.bits (d : Dyad) : F32 :=
  let m := d.num.natAbs
  let sign : Nat := if d.num < 0 then 2 ^ 31 else 0
  if m = 0 then 0
  else if 128 < d.exp + bitLength m then BitVec.ofNat 32 (sign + 0x7F800000)
  else
    let q := lastPlace d
    let frac := if q ≤ d.exp then m <<< (d.exp - q).toNat else m >>> (q - d.exp).toNat
    BitVec.ofNat 32 (sign + ((q + 149).toNat <<< 23) + frac)

/-- `p / 1048576` after the product `c × raw`, one rounding for each operation (43_sensor R215, R216). -/
def scaleStepwise (c raw : Nat) : Dyad :=
  fl ((fl ((fl (Dyad.ofNat raw)).mulNat c)).divPow2 20)

/-- The humidity value of a raw count, `100 × raw / 2^20`, by the evaluation `e` (43_sensor R215). -/
def humidityValue (e : FloatEval) (raw : Nat) : Dyad :=
  match e with
  | .f32Stepwise => scaleStepwise 100 raw
  | .exactThenRound => fl (((Dyad.ofNat raw).mulNat 100).divPow2 20)

/-- The temperature value of a raw count, `200 × raw / 2^20 − 50`, by the evaluation `e` (43_sensor R216). -/
def temperatureValue (e : FloatEval) (raw : Nat) : Dyad :=
  match e with
  | .f32Stepwise => fl ((scaleStepwise 200 raw).subNat 50)
  | .exactThenRound => fl ((((Dyad.ofNat raw).mulNat 200).divPow2 20).subNat 50)

/-- `scale_h` (43_sensor R215). -/
def scaleH (raw : Raw) : F32 := (humidityValue Config.floatEval raw.toNat).bits

/-- `scale_t` (43_sensor R216). -/
def scaleT (raw : Raw) : F32 := (temperatureValue Config.floatEval raw.toNat).bits

end Sys2Proof.Machine
end

