-- ==== Sys2Proof/Machine/Observer.lean ====
section
/-! DEFINITION. The reference receiver: what a chain of `n` matrix modules does with the line events
(41_display_wire_commands R140 to R146, from general knowledge, D19). It is an observer: the block never reads it. -/

namespace Sys2Proof.Machine

/-- A driven level as a line level. -/
def lineLevelOf : Level → LineLevel
  | .low => .low
  | .high => .high

/-- The bit a shift takes from the DATA line; an Unknown level gives an unspecified bit (41 R142). -/
def dataBit : LineLevel → Option Bool
  | .low => some false
  | .high => some true
  | .unknown => none

/-- The observer with another level on line `l`. -/
def Observer.withLevel (o : Observer) (l : Line) (v : LineLevel) : Observer :=
  match l with
  | .data => { o with data := v }
  | .clk => { o with clk := v }
  | .cs => { o with cs := v }

/-- The value of a list of bits, least significant first, where every bit is specified. -/
def knownNat : List (Option Bool) → Option Nat
  | [] => some 0
  | none :: _ => none
  | some b :: bs => (knownNat bs).map fun v => 2 * v + b.toNat

/-- The word of position `i` in a chain of `n`, least significant bit first: the word shifted in first belongs to
position 0 (41 R143). -/
def wordBits (n i : Nat) (chain : List (Option Bool)) : List (Option Bool) :=
  (List.range 16).map fun j => chain.getD (16 * (n - 1 - i) + j) none

/-- The effect of a latched word on a module (41 R144); `none` for a word the block never sends, a power off among them
(93 U9, log entry 34). A word whose address is unspecified may have written any register: all of them become unspecified
(log entry 22). -/
def applyWord (bits : List (Option Bool)) (m : MatrixModule) : Option MatrixModule :=
  let d : Option Byte := (knownNat (bits.take 8)).map (BitVec.ofNat 8)
  match knownNat ((bits.drop 8).take 4) with
  | none => some MatrixModule.unspecified
  | some adr =>
    if adr = Config.regAddr Config.opNoop then some m
    else if Config.regAddr Config.opRow0 ≤ adr ∧ adr < Config.regAddr Config.opRow0 + Config.rows then
      some { m with rows := m.rows.set (adr - Config.regAddr Config.opRow0) d }
    else if adr = Config.regAddr Config.opDecode then some { m with decode := d }
    else if adr = Config.regAddr Config.opIntensity then
      some { m with intensity := (knownNat (bits.take 4)).map (BitVec.ofNat 4) }
    else if adr = Config.regAddr Config.opPower then
      match bits.getD 0 none with
      | some true => some { m with power := some true }
      | some false => none
      | none => some { m with power := none }
    else none

/-- What two possible states of a register agree on. -/
def joinKnown {α : Type} [DecidableEq α] (a b : Option α) : Option α := if a = b then a else none

/-- What two possible states of a module agree on. -/
def MatrixModule.join (a b : MatrixModule) : MatrixModule where
  rows := List.zipWith joinKnown a.rows b.rows
  decode := joinKnown a.decode b.decode
  intensity := joinKnown a.intensity b.intensity
  power := joinKnown a.power b.power

/-- The module of position `i` takes its word (41 R143, R144). While it is in doubt whether a clock pulse was a rising edge
the frame may also have been received shifted by one bit (70 R335): what the whole word and the two shifted ones agree on
is kept, and the rest is unspecified (log entry 22). -/
def takeAt (n : Nat) (slipped : Bool) (chain : List (Option Bool)) (i : Nat) (m : MatrixModule) : Option MatrixModule :=
  if slipped then
    match applyWord (wordBits n i chain) m, applyWord (wordBits n i (none :: chain)) m,
      applyWord (wordBits n i (chain.drop 1)) m with
    | some a, some b, some c => some ((a.join b).join c)
    | _, _, _ => none
  else applyWord (wordBits n i chain) m

/-- Every module of the chain takes its word, from position `i` on; `none` where one meets an address the block never
sends (41 R143, R144). -/
def latchFrom (n : Nat) (slipped : Bool) (chain : List (Option Bool)) :
    Nat → List MatrixModule → Option (List MatrixModule)
  | _, [] => some []
  | i, m :: ms =>
    if i < n then
      match takeAt n slipped chain i m, latchFrom n slipped chain (i + 1) ms with
      | some m', some ms' => some (m' :: ms')
      | _, _ => none
    else some (m :: ms)

/-- Latching (41 R143): every position takes its word; a word the block never sends ends the observation (R144, 93 U9). -/
def Observer.latch (n : Nat) (o : Observer) : Observer :=
  match latchFrom n o.doubt.isSome o.chain 0 o.mods with
  | some ms => { o with mods := ms }
  | none => { o with stuck := true }

/-- A doubt after one more certain bit: once the chain has taken as many bits as it holds, a doubtful pulse before them is
pushed out (70 R335). -/
def aged (n : Nat) : Option Nat → Option Nat
  | none => none
  | some k => if k + 1 < 16 * n then some (k + 1) else none

/-- The chain takes one bit at its near end and drops the bit at its far end (41 R142). -/
def pushBit (n : Nat) (b : Option Bool) (chain : List (Option Bool)) : List (Option Bool) := (b :: chain).take (16 * n)

/-- CLK driven High (41 R142): on a rising edge the chain takes the DATA bit; from an Unknown level it is unspecified whether
there was an edge, so the bit is unspecified and the observer doubts the places of the bits around it (log entry 22). -/
def Observer.clkHigh (n : Nat) (o : Observer) : Observer :=
  match o.clk with
  | .low => { o with chain := pushBit n (dataBit o.data) o.chain, doubt := aged n o.doubt }
  | .high => o
  | .unknown => { o with chain := pushBit n none o.chain, doubt := some 0 }

/-- CS driven High (41 R143): a rising edge latches; from an Unknown level it is unspecified whether there was an edge,
so that no module register is known (log entry 22). -/
def Observer.csHigh (n : Nat) (o : Observer) : Observer :=
  match o.cs with
  | .low => o.latch n
  | .high => o
  | .unknown => { o with mods := o.mods.map fun _ => MatrixModule.unspecified }

/-- The observer after the line event `Set(l, v)` (41 R142, R143). Once stuck it follows the levels only. -/
def Observer.onSet (n : Nat) (l : Line) (v : Level) (o : Observer) : Observer :=
  let o' :=
    if o.stuck then o
    else
      match l, v with
      | .clk, .high => o.clkHigh n
      | .cs, .high => o.csHigh n
      | _, _ => o
  o'.withLevel l (lineLevelOf v)

/-- The observer after an event of the trace, with `n` modules in the chain. -/
def Observer.onEvent (n : Nat) (o : Observer) : Event → Observer
  | .claim l => o.withLevel l (lineLevelOf Config.claimLevel)
  | .set l v => o.onSet n l v
  | .twWrite _ _ => o
  | .twRead _ _ _ => o
  | .delay _ => o

/-- The observer after a list of events: what the display shows as a function of a trace (41 R140). -/
def Observer.watch (n : Nat) (o : Observer) (events : List Event) : Observer :=
  events.foldl (Observer.onEvent n) o

/-- The observer after a failed drive of line `l`, which emits no event (40_serial_port R112, 41 R142). -/
def Observer.onLost (l : Line) (o : Observer) : Observer := o.withLevel l .unknown

/-- The observer after the block gave its lines up: the level of an unowned line is any value (93 U5; log entry 24). -/
def Observer.onRelease (o : Observer) : Observer :=
  { o with data := .unknown, clk := .unknown, cs := .unknown }

/-- Whether the image of a chain of `n` modules is defined (41 R145). -/
def Observer.imageDefined (n : Nat) (o : Observer) : Bool :=
  !o.stuck && decide (n ≤ o.mods.length)
    && (o.mods.take n).all fun m => decide (m.power = some true) && decide (m.decode = some 0x00#8)

/-- Whether pixel `(x, y)` is lit, where the image is defined and the row is specified (41 R145). -/
def Observer.lit (n : Nat) (o : Observer) (x y : Nat) : Option Bool :=
  if o.imageDefined n then
    (((o.mods.getD (x / 8) MatrixModule.unspecified).rows.getD y none)).map fun d => d.getLsbD (7 - x % 8)
  else none

end Sys2Proof.Machine
end

