-- ==== Sys2Proof/Machine/Operands.lean ====
section
/-! DEFINITION. How operands are formed: the pixel address and the row byte of the frame serializer (20_memory R56,
42_display_operations R165), the wire words (30_encoding R86 to R88), the place of a word in a wire frame
(40_serial_port R115), the reply's bytes and raw counts (43_sensor R213, R214). -/

namespace Sys2Proof.Machine

/-! ### Pixels to row bytes -/

/-- The intensity of pixel `(x, y)` of a pixel source given as data: 0 where nothing is listed. -/
def pixelAt (canvas : List Pixel) (x y : Nat) : Byte :=
  match canvas.find? (fun p => p.x == x && p.y == y) with
  | some p => p.v
  | none => 0

/-- Row byte `y` of module `i`: bit `7 − c` is set when pixel `(c + 8·i, y)` is not zero, columns upward
(42_display_operations R165). -/
def rowByte (p : Nat → Nat → Byte) (i y : Nat) : Byte :=
  (List.range Config.cols).foldl
    (fun v c => if p (c + 8 * i) y ≠ 0 then v ||| (1#8 <<< (7 - c)) else v) 0x00#8

/-- The frame buffer of `n` modules, module by module and row by row (42_display_operations R165). -/
def frameBuffer (p : Nat → Nat → Byte) (n : Nat) : List (List Byte) :=
  (List.range n).map fun i => (List.range Config.rows).map fun y => rowByte p i y

/-- `FB[i][y]`. -/
def fbByte (fb : List (List Byte)) (i y : Nat) : Byte := (fb.getD i []).getD y 0

/-! ### Wire words -/

/-- The wire commands that a frame can be addressed with (30_encoding R87; W_NOOP fills the other positions). No word of
R89 can be formed. -/
inductive Wire where
  /-- W_ROW `r` with its row byte. -/
  | row (r : Fin 8) (d : Byte)
  | decodeRaw
  | intensity (level : Byte)
  | powerOn
deriving DecidableEq, Repr

/-- The register-select byte of a wire command (30_encoding R87). -/
def Wire.sel : Wire → Byte
  | .row r _ => Config.opRow r.val
  | .decodeRaw => Config.opDecode
  | .intensity _ => Config.opIntensity
  | .powerOn => Config.opPower

/-- The data byte of a wire command; a level is sent whole (30_encoding R87, R88). -/
def Wire.dat : Wire → Byte
  | .row _ d => d
  | .decodeRaw => Config.dataDecodeRaw
  | .intensity level => level
  | .powerOn => Config.dataPowerOn

/-- The word `sel dat` put at chain position `i` of a transfer buffer: bytes `2i` and `2i + 1` (40_serial_port R115). -/
def placeWord (i : Nat) (sel dat : Byte) (buf : List Byte) : List Byte :=
  (buf.set (2 * i) sel).set (2 * i + 1) dat

/-- The transfer buffer of `n` positions with W_NOOP at each (40_serial_port R115, 30_encoding R87). -/
def noopBuffer (n : Nat) : List Byte := (List.replicate n [Config.opNoop, Config.dataNoop]).flatten

/-- The transfer buffer of a frame of `n` words that addresses position `i`: W_NOOP everywhere else
(40_serial_port R115). -/
def wireBuffer (n i : Nat) (sel dat : Byte) : List Byte := placeWord i sel dat (noopBuffer n)

/-! ### The sensor reply -/

/-- The six bytes of a reply, index 0 first (20_memory R60). -/
def replyBytes (r : Reply) : List Byte := [r.b0, r.b1, r.b2, r.b3, r.b4, r.b5]

/-- `HUM_RAW`, the top 20 bits of bytes 1 to 3 (43_sensor R213). -/
def assembleHumidity (r : Reply) : Raw :=
  (r.b1.setWidth 20 <<< 12) ||| (r.b2.setWidth 20 <<< 4) ||| (r.b3.setWidth 20 >>> 4)

/-- `TEMP_RAW`, the bottom 20 bits of bytes 3 to 5 (43_sensor R214). -/
def assembleTemperature (r : Reply) : Raw :=
  ((r.b3 &&& 0x0F#8).setWidth 20 <<< 16) ||| (r.b4.setWidth 20 <<< 8) ||| r.b5.setWidth 20

end Sys2Proof.Machine
end

