-- ==== Sys2Proof/Machine/Ops.lean ====
section
/-! DEFINITION. The shared operations: the oracles' questions, the named updates of the state, line writes, frames and
register writes of the serial port (40_serial_port), the two-wire transactions and the delay (43_sensor R201, R202, R207),
and how an operation ends: with its result, or with an error (60_exceptions R290). -/

namespace Sys2Proof.Machine

/-! ### The oracles' questions -/

/-- The answer to the `j`-th question from now: the script's, or the oracle's free value for that question (00_scope
R11). -/
def Feed.peek {α : Type} (free : Nat → α) (f : Feed α) (j : Nat) : α :=
  match f.script[j]? with
  | some a => a
  | none => free (f.asked + j)

/-- The feed after `k` questions. -/
def Feed.skip {α : Type} (k : Nat) (f : Feed α) : Feed α := ⟨f.script.drop k, f.asked + k⟩

/-- PinOracle's answer to the `j`-th question from now, `true` for `ok`. -/
def State.pinAnswer (s : State) (j : Nat) : Bool := s.pins.peek Config.pinOracle j

/-- PinOracle answers `ok` to each of the next `k` questions. -/
def State.pinsOk (s : State) (k : Nat) : Prop := ∀ j, j < k → s.pinAnswer j = true

/-- BusOracle's answer to the next write, `true` for `ok`. -/
def State.busWriteAnswer (s : State) (addr : BusAddr) (bytes : List Byte) : Bool :=
  s.busWrites.peek (fun k => Config.busWriteOracle k addr bytes) 0

/-- BusOracle's answer to the next read, `none` for `fail`. -/
def State.busReadAnswer (s : State) (addr : BusAddr) : Option Reply :=
  s.busReads.peek (fun k => Config.busReadOracle k addr) 0

/-- The pixel source presented to the next DRAW (00_scope R11). -/
def State.pixels (s : State) : Nat → Nat → Byte :=
  match s.canvases.script.head? with
  | some canvas => pixelAt canvas
  | none => Config.pixelSource s.canvases.asked

/-- PinOracle was asked once. -/
def State.askPin (s : State) : State := { s with pins := s.pins.skip 1 }

/-- BusOracle was asked for one write. -/
def State.askBusWrite (s : State) : State := { s with busWrites := s.busWrites.skip 1 }

/-- BusOracle was asked for one read. -/
def State.askBusRead (s : State) : State := { s with busReads := s.busReads.skip 1 }

/-- One pixel source was taken: only a DRAW that is accepted takes one (DESIGN CHOICE, log entry 7). -/
def State.takePixels (s : State) : State := { s with canvases := s.canvases.skip 1 }

/-! ### Reading and updating the state -/

/-- `CFG.N`; 0 while CFG has no value, when nothing asks for it. -/
def State.moduleCount (s : State) : Nat :=
  match s.cfg with
  | some c => c.n
  | none => 0

/-- `LINE[l]`. -/
def Lines.get (ls : Lines) (l : Line) : LineState :=
  match l with
  | .data => ls.data
  | .clk => ls.clk
  | .cs => ls.cs

/-- The lines with another `LINE[l]`. -/
def Lines.put (ls : Lines) (l : Line) (v : LineState) : Lines :=
  match l with
  | .data => { ls with data := v }
  | .clk => { ls with clk := v }
  | .cs => { ls with cs := v }

/-- The lines with `LINE[l].level <- v`. -/
def Lines.withLevel (ls : Lines) (l : Line) (v : LineLevel) : Lines := ls.put l { ls.get l with level := v }

/-- The lines with every `LINE[m].owned <- false`, levels as left (42_display_operations R160). -/
def Lines.released (ls : Lines) : Lines :=
  ⟨{ ls.data with owned := false }, { ls.clk with owned := false }, { ls.cs with owned := false }⟩

/-- All three lines are owned, the precondition of a frame (40_serial_port R114). -/
def Lines.allOwned (ls : Lines) : Bool := ls.data.owned && ls.clk.owned && ls.cs.owned

/-- No line is owned. -/
def Lines.noneOwned (ls : Lines) : Bool := !ls.data.owned && !ls.clk.owned && !ls.cs.owned

/-- `emit e` (00_scope R14): the event enters TRACE; the observer sees it. -/
def State.emit (e : Event) (s : State) : State :=
  { s with tape := e :: s.tape, modules := s.modules.onEvent s.moduleCount e }

/-- `LINE[l].level <- v`. -/
def State.drive (l : Line) (v : LineLevel) (s : State) : State := { s with lines := s.lines.withLevel l v }

/-- `LINE[l].level <- Unknown` after a failed drive (40_serial_port R112). -/
def State.loseLine (l : Line) (s : State) : State :=
  { s with lines := s.lines.withLevel l .unknown, modules := s.modules.onLost l }

/-- Every line is released (42_display_operations R160). -/
def State.release (s : State) : State :=
  { s with lines := s.lines.released, modules := s.modules.onRelease }

/-- The sequencer begins an operation (10_state R27). The coordinates that a phase does not use are open; 0 and CS_LOW stand
there until a wire command sets them (DESIGN CHOICE, log entry 33). -/
def State.begin (op : SeqOp) (s : State) : State := { s with seq := { SeqPos.idle with op := op } }

/-- The sequencer enters a phase. -/
def State.inPhase (p : Phase) (s : State) : State := { s with seq := { s.seq with phase := p } }

/-- The sequencer is at module `i`, row `r` of a phase. -/
def State.atModule (p : Phase) (i r : Nat) (s : State) : State :=
  { s with seq := { s.seq with phase := p, i := i, r := r } }

/-- The sequencer is at byte `b`, bit `k`, sub-step `sub` of a wire frame. -/
def State.atWrite (b k : Nat) (sub : SubStep) (s : State) : State :=
  { s with seq := { s.seq with b := b, k := k, s := sub } }

/-- The result `r` is returned to the host (00_scope R16). -/
def State.answer (r : Result) (s : State) : State := { s with results := s.results ++ [r] }

/-- The operation's own registers and the sequencer's coordinates lose their value (10_state R24 to R30). -/
def State.retire (s : State) : State := { s with scratch := Scratch.empty, seq := SeqPos.idle }

/-! ### Runs: how a part of an operation ends -/

/-- Where a part of an operation stopped: at its end, or where it raised an error. -/
structure Run where
  err : Option Err
  st : State
deriving DecidableEq, Repr

/-- The part came to its end. -/
def Run.ok (s : State) : Run := ⟨none, s⟩

/-- `raise e` (00_scope R14). -/
def Run.raise (e : Err) (s : State) : Run := ⟨some e, s⟩

/-- What follows is done only if nothing was raised (60_exceptions R290 (1)). -/
def Run.andThen (r : Run) (k : State → Run) : Run :=
  match r.err with
  | none => k r.st
  | some _ => r

/-- The state change a raising rule names, made only where an error was raised (60_exceptions R290 (3)). -/
def Run.onRaise (r : Run) (f : State → State) : Run :=
  match r.err with
  | none => r
  | some e => ⟨some e, f r.st⟩

/-- ERROR ENTRY (60_exceptions R290), the one way an operation ends early: what was done stays done, the operation's own
registers are discarded, `Err(e)` goes to the host. There is no saved state, no vector and no handler, and so no return
from an error: the block is idle and takes the next operation (R292). The place of the cut is kept for the observer (log
entry 18). -/
def takeError (e : Err) (s : State) : State :=
  ({ s with lastCut := s.seq }.answer (.err e)).retire

/-- How an operation ends: with the answer given, or with the error raised. -/
def conclude (success : State → State) (r : Run) : State :=
  match r.err with
  | none => (success r.st).retire
  | some e => takeError e r.st

/-! ### The serial port (40_serial_port) -/

/-- One line write of a frame with its place in the frame (10_state R27). -/
structure LineWrite where
  line : Line
  level : Level
  b : Nat
  k : Nat
  sub : SubStep
deriving DecidableEq, Repr

/-- The event a line write emits. -/
def LineWrite.event (w : LineWrite) : Event := .set w.line w.level

/-- SET_LOW and SET_HIGH (40_serial_port R110, R111), and their failure (R112): PinOracle is asked once; on `ok` the line
has the level and the event is emitted, whether or not the level changed; on `fail` the level is Unknown, no event is
emitted and Data is raised. -/
def lineWrite (w : LineWrite) (s : State) : Run :=
  let s' := (s.atWrite w.b w.k w.sub).askPin
  if s.pinAnswer 0 then Run.ok ((s'.drive w.line (lineLevelOf w.level)).emit w.event)
  else Run.raise .data (s'.loseLine w.line)

/-- Line writes in order, up to the first that fails (40_serial_port R112). -/
def driveAll : List LineWrite → State → Run
  | [], s => Run.ok s
  | w :: ws, s => (lineWrite w s).andThen (driveAll ws)

/-- The level that stands for a bit. -/
def bitLevel (b : Bool) : Level := if b then .high else .low

/-- The three line writes of bit `k` of byte `v` (40_serial_port R113). -/
def bitWrites (b : Nat) (v : Byte) (k : Nat) : List LineWrite :=
  [⟨.data, bitLevel (v.getLsbD k), b, k, .data⟩, ⟨.clk, .high, b, k, .clkHigh⟩, ⟨.clk, .low, b, k, .clkLow⟩]

/-- The line writes of SHIFT_BYTE(v), most significant bit first (40_serial_port R113); `b` is the byte's place in its
frame. -/
def byteWrites (b : Nat) (v : Byte) : List LineWrite := [7, 6, 5, 4, 3, 2, 1, 0].flatMap (bitWrites b v)

/-- SHIFT_BYTE for each byte of a list, the first at place `b`. -/
def bytesWrites : Nat → List Byte → List LineWrite
  | _, [] => []
  | b, v :: vs => byteWrites b v ++ bytesWrites (b + 1) vs

/-- The line writes of FRAME(buf) (40_serial_port R114). The sub-steps CS_LOW and CS_HIGH lie outside the loops over bytes and
bits, where the coordinates `b` and `k` are open: the first byte's first bit stands at CS_LOW and the last byte's last bit
at CS_HIGH (DESIGN CHOICE, log entry 33). -/
def frameWrites (buf : List Byte) : List LineWrite :=
  ⟨.cs, .low, 0, 7, .csLow⟩ :: (bytesWrites 0 buf ++ [⟨.cs, .high, buf.length - 1, 0, .csHigh⟩])

/-- The events of a whole frame. -/
def frameEvents (buf : List Byte) : List Event := (frameWrites buf).map LineWrite.event

/-- `TXBUF <- buf`. -/
def State.fillTxbuf (buf : List Byte) (s : State) : State := { s with scratch := { s.scratch with txbuf := buf } }

/-- FRAME(TXBUF) (40_serial_port R114). -/
def frame (s : State) : Run := driveAll (frameWrites s.scratch.txbuf) s

/-- WRITE_REG(i, sel, dat) (40_serial_port R115), `i` the module the sequencer is at. -/
def writeReg (sel dat : Byte) (s : State) : Run :=
  frame (s.fillTxbuf (wireBuffer s.moduleCount s.seq.i sel dat))

/-- A wire command at the module the sequencer is at (41_display_wire_commands R131 to R134). -/
def wireCommand (w : Wire) (s : State) : Run := writeReg w.sel w.dat s

/-- Which precondition of a frame does not hold (40_serial_port R113, R114), if one does not. R114's precondition that DISP
is being constructed or is Live is not tested by itself: between operations an Absent display owns no line (10_state R34
(b)), which the test of ownership stops. In a state that R34 (b) excludes, with DISP Absent but CFG set and the lines owned,
a wire command on the bench sends its frame (DESIGN CHOICE, log entry 12). -/
def linkFault (s : State) : Option Fault :=
  match s.cfg with
  | none => some .noChain
  | some _ => if s.lines.allOwned then none else some .linkNotOwned

/-- As `linkFault`, and the sequencer's position is one of the chain (40_serial_port R115). -/
def positionFault (s : State) : Option Fault :=
  match linkFault s with
  | some f => some f
  | none => if s.seq.i < s.moduleCount then none else some .positionOutOfRange

/-- The outcome of a step that needs preconditions. -/
def unlessFault (f : Option Fault) (t : State) : Host.Outcome State Fault Refusal :=
  match f with
  | some r => .fault r
  | none => .next t

/-! ### The two-wire bus and the delay (43_sensor) -/

/-- TW_WRITE(addr, bytes) (43_sensor R201): whether it was answered `ok`, and the state after it. -/
def twWrite (addr : BusAddr) (bytes : List Byte) (s : State) : Bool × State :=
  if s.busWriteAnswer addr bytes then (true, s.askBusWrite.emit (.twWrite addr bytes)) else (false, s.askBusWrite)

/-- TW_READ(addr, 6) (43_sensor R202): the reply, or `none` for `fail`, and the state after it. -/
def twRead (addr : BusAddr) (s : State) : Option Reply × State :=
  match s.busReadAnswer addr with
  | some r => (some r, s.askBusRead.emit (.twRead addr Config.replyLen (replyBytes r)))
  | none => (none, s.askBusRead)

/-- DELAY(ms) (43_sensor R207): a blocking wait of at least `ms` milliseconds; it cannot fail. -/
def delay (ms : Nat) (s : State) : State := s.emit (.delay ms)

/-! ### Result words -/

/-- The code of an error (60_exceptions R280). -/
def Err.code : Err → Byte
  | .countExceeded => 0x01#8
  | .connection => 0x02#8
  | .data => 0x03#8
  | .sensorInit => 0x04#8
  | .sensorMeasure => 0x05#8
  | .uncalibrated => 0x06#8

/-- The code of a result (30_encoding R84). -/
def Result.code : Result → Byte
  | .ok => 0x00#8
  | .reading _ _ => 0x00#8
  | .err e => e.code
  | .refused _ => 0xFF#8

/-- The result word `(code, temperature, humidity)`; the two values are present for a reading alone (30_encoding R84). -/
def Result.word : Result → Byte × Option F32 × Option F32
  | .reading t h => (0x00#8, some t, some h)
  | .ok => (Result.code .ok, none, none)
  | .err e => (Result.code (.err e), none, none)
  | .refused r => (Result.code (.refused r), none, none)

/-! ### Issued words -/

/-- The word the next step runs and the state without it: the one on the bench (log entry 2), or else the next host word;
`none` while there is neither (log entry 1). -/
def fetch (s : State) : Option (Issued × State) :=
  match s.bench with
  | some q => some (q, { s with bench := none })
  | none =>
    match s.inbox with
    | [] => none
    | w :: rest => some (.h32 w, { s with inbox := rest })

/-- The word `q` is put on the bench (log entry 2). -/
def State.onBench (q : Issued) (s : State) : State := { s with bench := some q }

/-- A step that meets a word the decoder rejects: an illegal H32 word is refused as the spec says (30_encoding R85); a
W16, S24 or R48 word the decoder rejects is one the block never sends or has no row, and has no meaning (R89, R90; log
entry 25). -/
def rejectWord (q : Issued) (s : State) : Host.Outcome State Fault Refusal :=
  match q with
  | .h32 _ => .next (s.answer (.refused .illegalCommand))
  | .w16 _ => .refused .neverSentWord
  | .s24 _ => .refused .neverSentWord
  | .r48 _ => .refused .neverSentWord

end Sys2Proof.Machine
end

