-- ==== Sys2Proof/Machine/Display.lean ====
section
/-! DEFINITION. The meanings of the display operations NEW, BRIGHTNESS, CLEAR and DRAW (42_display_operations R160 to
R167). Each operation is one step: all its wire frames in order, cut at the first failing line write (10_state R27). -/

namespace Sys2Proof.Machine

/-- A wire command of an operation, with the phase, module and row it is sent at (10_state R27). -/
structure Send where
  phase : Phase
  i : Nat
  r : Nat
  wire : Wire
deriving DecidableEq, Repr

/-- One wire command of an operation. -/
def sendOne (w : Send) (s : State) : Run := wireCommand w.wire (s.atModule w.phase w.i w.r)

/-- The wire commands of an operation in order, up to the first that fails. -/
def sendAll : List Send → State → Run
  | [], s => Run.ok s
  | w :: ws, s => (sendOne w s).andThen (sendAll ws)

/-- One wire command for each of `n` modules, positions upward. A phase without rows leaves the row coordinate open; 0 stands
there (DESIGN CHOICE, log entry 33). -/
def eachModule (phase : Phase) (wire : Wire) (n : Nat) : List Send :=
  (List.range n).map fun i => ⟨phase, i, 0, wire⟩

/-- The eight row writes of each of `n` modules, modules upward and rows upward inside a module (42 R163, R166); `d i r`
is the row byte. -/
def eachRow (phase : Phase) (d : Nat → Nat → Byte) (n : Nat) : List Send :=
  (List.range n).flatMap fun i => (List.finRange 8).map fun r => ⟨phase, i, r.val, .row r (d i r.val)⟩

/-! ### NEW -/

/-- The sending phases of NEW: POWER, DECODE, CLEAR, BRIGHT (42 R160). -/
def newSends (n : Nat) (level : Byte) : List Send :=
  eachModule .power .powerOn n ++ eachModule .decode .decodeRaw n ++ eachRow .clear (fun _ _ => 0x00#8) n
    ++ eachModule .bright (.intensity level) n

/-- Opening DEVICE: one question, no event (42 R160). -/
def openDevice (s : State) : Run :=
  if s.pinAnswer 0 then Run.ok s.askPin else Run.raise .connection s.askPin

/-- The state with line `l` owned and at `CLAIM_LEVEL` (42 R160). -/
def State.own (l : Line) (s : State) : State :=
  { s with lines := s.lines.put l ⟨true, lineLevelOf Config.claimLevel⟩ }

/-- Claiming line `l`; a failure releases every line (42 R160). -/
def claimLine (l : Line) (s : State) : Run :=
  if s.pinAnswer 0 then Run.ok ((s.askPin.own l).emit (.claim l)) else Run.raise .connection s.askPin.release

/-- The phase CLAIM of NEW: the device, then DATA, CS, CLK in this order (42 R160). -/
def claimAll (s : State) : Run :=
  (((openDevice s).andThen (claimLine .data)).andThen (claimLine .cs)).andThen (claimLine .clk)

/-- `CFG` as a NEW of `n` modules writes it (10_state R21). -/
def configOf (n : Nat) : Cfg := ⟨n, Config.device, Config.pinData, Config.pinCs, Config.pinClk⟩

/-- `CFG <- c`. -/
def State.withCfg (c : Option Cfg) (s : State) : State := { s with cfg := c }

/-- `DISP <- d`. -/
def State.withDisp (d : Disp) (s : State) : State := { s with disp := d }

/-- What a NEW that fails in a sending phase leaves: lines released, CFG without value, no Display (42 R160). -/
def abandonDisplay (s : State) : State := (s.release.withCfg none).withDisp .absent

/-- The phases of NEW after its checks (42 R160). -/
def constructDisplay (n : Nat) (level : Byte) (s : State) : Run :=
  (claimAll (s.inPhase .claim)).andThen fun s' =>
    (sendAll (newSends n level) (s'.withCfg (some (configOf n)))).onRaise abandonDisplay

/-- NEW(n, level) (42 R160, R161). The count is compared as it stands, before anything is opened or claimed. -/
def execNew (n : Nat) (level : Byte) (s : State) : Host.Outcome State Fault Refusal :=
  if s.disp = .live then .next (s.answer (.refused .alreadyLive))
  else if n < 1 ∨ Config.nMax < n then .next (takeError .countExceeded (s.begin .new))
  else .next (conclude (fun t => (t.withDisp .live).answer .ok) (constructDisplay n level (s.begin .new)))

/-- Line `l` owned and at `CLAIM_LEVEL`, seen by the observer, with no event. -/
def State.ownQuietly (l : Line) (s : State) : State :=
  { s.own l with modules := s.modules.onEvent 0 (.claim l) }

/-- What fetching a word takes: a wire word is only ever fetched on the link of a live display, so for a wire word the
display is live, with one module where there was none (log entry 13). -/
def State.withLinkFor (q : Issued) (s : State) : State :=
  match q with
  | .w16 _ =>
    if s.disp = .live then s
    else
      ((((s.withCfg (some (configOf 1))).ownQuietly .data).ownQuietly .cs).ownQuietly .clk).withDisp .live
  | .h32 _ => s
  | .s24 _ => s
  | .r48 _ => s

/-! ### BRIGHTNESS, CLEAR, DRAW -/

/-- An operation on the display: refused while there is none (42 R167), and then a pixel source presented stays for the next
DRAW (DESIGN CHOICE, log entry 7); otherwise its parts, answered `Ok` at their end. -/
def onDisplay (op : SeqOp) (body : State → Run) (s : State) : Host.Outcome State Fault Refusal :=
  if s.disp = .absent then .next (s.answer (.refused .noDisplay))
  else unlessFault (linkFault s) (conclude (State.answer .ok) (body (s.begin op)))

/-- BRIGHTNESS(level) (42 R162): one frame for each module; the level is neither rejected nor masked. -/
def execBrightness (level : Byte) (s : State) : Host.Outcome State Fault Refusal :=
  onDisplay .brightness (fun t => sendAll (eachModule .none (.intensity level) t.moduleCount) t) s

/-- CLEAR (42 R163). -/
def execClear (s : State) : Host.Outcome State Fault Refusal :=
  onDisplay .clear (fun t => sendAll (eachRow .none (fun _ _ => 0x00#8) t.moduleCount) t) s

/-- DRAW, phase BUILD (42 R165): the pixel source fills FB; no event, no failure. -/
def buildFrames (s : State) : State :=
  ({ s with scratch := { s.scratch with fb := frameBuffer s.pixels s.moduleCount } }.takePixels).inPhase .build

/-- DRAW, phase WRITE (42 R166): every row of every module, from FB. -/
def writeFrames (s : State) : Run := sendAll (eachRow .write (fbByte s.scratch.fb) s.moduleCount) s

/-- DRAW (42 R164). -/
def execDraw (s : State) : Host.Outcome State Fault Refusal :=
  onDisplay .draw (fun t => writeFrames (buildFrames t)) s

end Sys2Proof.Machine
end

