-- ==== Sys2Proof/Machine/Sensor.lean ====
section
/-! DEFINITION. The meanings of the sensor operations S_INIT and S_MEASURE (43_sensor R205, R206), of the two command
strings (R203, R204) and of the two outcomes of a reply (R211 to R216). The stages are shared (log entries 15 and 16). -/

namespace Sys2Proof.Machine

/-- `SNS <- v`. -/
def State.withSns (v : Sns) (s : State) : State := { s with sns := v }

/-- The state with other registers of the operation. -/
def State.withScratch (r : Scratch) (s : State) : State := { s with scratch := r }

/-! ### The stages of the two pipelines (43_sensor R200) -/

/-- Stage CMD of S_INIT: the init command; a failed write leaves `SNS = Undefined` and is SensorInit (43 R205). -/
def stageCmd (s : State) : Run :=
  let r := twWrite Config.sensorAddr Config.cmdInit (s.inPhase .cmd)
  if r.1 then Run.ok r.2 else Run.raise .sensorInit (r.2.withSns .undefined)

/-- Stage SETTLE of S_INIT (43 R205). -/
def stageSettle (s : State) : State := (delay Config.tInitMs (s.inPhase .settle)).withSns .ready

/-- Stage TRIGGER of S_MEASURE: a failed write is SensorMeasure (43 R206). -/
def stageTrigger (s : State) : Run :=
  let r := twWrite Config.sensorAddr Config.cmdTrigger (s.inPhase .trigger)
  if r.1 then Run.ok r.2 else Run.raise .sensorMeasure r.2

/-- Stage CONVERT of S_MEASURE (43 R206). -/
def stageConvert (s : State) : State := delay Config.tMeasMs (s.inPhase .convert)

/-- `RX[0..5] <- r`. -/
def State.receive (r : Reply) (s : State) : State := s.withScratch { s.scratch with rx := r }

/-- Stage READ of S_MEASURE: one read of six bytes; a failed read is SensorMeasure (43 R206). -/
def stageRead (s : State) : Run :=
  match twRead Config.sensorAddr (s.inPhase .read) with
  | (some r, s') => Run.ok (s'.receive r)
  | (none, s') => Run.raise .sensorMeasure s'

/-- Stage STATUS: the three flags from `RX[0]` (43 R211). -/
def decodeStatus (s : State) : State :=
  let status := s.scratch.rx.b0
  (s.inPhase .decodeReply).withScratch
    { s.scratch with busy := statusBusy status, mode := statusMode status, cal := statusCal status }

/-- Stage ASSEMBLE: the two raw counts from `RX[1..5]` (43 R213, R214). -/
def stageAssemble (s : State) : State :=
  s.withScratch
    { s.scratch with humRaw := assembleHumidity s.scratch.rx, tempRaw := assembleTemperature s.scratch.rx }

/-- Stage SCALE: the two binary32 results (43 R215, R216). -/
def stageScale (s : State) : State :=
  s.withScratch { s.scratch with hum := scaleH s.scratch.humRaw, temp := scaleT s.scratch.tempRaw }

/-- Stages STATUS to SCALE on the reply in RX: with `CAL = 0` Uncalibrated is raised before any count is assembled
(43 R206, R212). -/
def decodeReplyStages (s : State) : Run :=
  let t := decodeStatus s
  if t.scratch.cal then Run.ok (stageScale (stageAssemble t)) else Run.raise .uncalibrated t

/-- `return Ok(TEMP, HUM)` (43 R206). -/
def answerReading (s : State) : State := s.answer (.reading s.scratch.temp s.scratch.hum)

/-! ### The host operations -/

/-- S_INIT (43 R205, R208). -/
def execSInit (s : State) : Host.Outcome State Fault Refusal :=
  if s.sns = .uninitialized then
    .next (conclude (State.answer .ok) ((stageCmd (s.begin .sInit)).andThen fun t => Run.ok (stageSettle t)))
  else .next (s.answer (.refused .sensorNotUninitialized))

/-- S_MEASURE (43 R206, R208): no loop, no retry, and `SNS` stays as it is. -/
def execSMeasure (s : State) : Host.Outcome State Fault Refusal :=
  if s.sns = .ready then
    .next (conclude answerReading
      (((stageTrigger (s.begin .sMeasure)).andThen fun t => stageRead (stageConvert t)).andThen decodeReplyStages))
  else .next (s.answer (.refused .sensorNotReady))

/-! ### The command strings and the reply, alone -/

/-- TW_CMD_INIT (43 R203): the init command in one write, with the failure S_INIT, its only sender, gives it. -/
def execTwCmdInit (s : State) : Host.Outcome State Fault Refusal := .next (conclude id (stageCmd s))

/-- TW_CMD_TRIGGER (43 R204): the measure command in one write, with the failure S_MEASURE, its only sender, gives it. -/
def execTwCmdTrigger (s : State) : Host.Outcome State Fault Refusal := .next (conclude id (stageTrigger s))

/-- R48_CALIBRATED (30_encoding R96): a reply with its calibration bit set is decoded, assembled and scaled, and the
reading is the result (43 R212 to R216). -/
def execR48Calibrated (r : Reply) (s : State) : Host.Outcome State Fault Refusal :=
  .next (conclude answerReading (decodeReplyStages (s.receive r)))

/-- R48_UNCALIBRATED (30_encoding R96): a reply with its calibration bit clear ends in Uncalibrated (43 R212). -/
def execR48Uncalibrated (r : Reply) (s : State) : Host.Outcome State Fault Refusal :=
  .next (conclude answerReading (decodeReplyStages (s.receive r)))

end Sys2Proof.Machine
end

