-- ==== Sys2Proof/Machine/Wire.lean ====
section
/-! DEFINITION. The meanings of the wire commands (41_display_wire_commands R130 to R134), each as one wire frame at the
chain position the sequencer is at. The display operations send the same commands through `wireCommand`; an arm here is a
command issued alone (log entries 2 and 17). -/

namespace Sys2Proof.Machine

/-- A wire command alone: its preconditions, its frame, and `Err(Data)` if a line write fails. It returns no result of its
own: only host operations do (30_encoding R84). -/
def sendAlone (w : Wire) (s : State) : Host.Outcome State Fault Refusal :=
  unlessFault (positionFault s) (conclude id (wireCommand w s))

/-- W_NOOP (41 R130): never sent on its own, and a module that receives it changes nothing: no event, no failure, no
change (log entry 14). -/
def execWNoop (s : State) : Host.Outcome State Fault Refusal := .next (conclude id (Run.ok s))

/-- W_ROW0 (41 R131). -/
def execWRow0 (dat : Byte) (s : State) : Host.Outcome State Fault Refusal := sendAlone (.row 0 dat) s

/-- W_ROW1 (41 R131). -/
def execWRow1 (dat : Byte) (s : State) : Host.Outcome State Fault Refusal := sendAlone (.row 1 dat) s

/-- W_ROW2 (41 R131). -/
def execWRow2 (dat : Byte) (s : State) : Host.Outcome State Fault Refusal := sendAlone (.row 2 dat) s

/-- W_ROW3 (41 R131). -/
def execWRow3 (dat : Byte) (s : State) : Host.Outcome State Fault Refusal := sendAlone (.row 3 dat) s

/-- W_ROW4 (41 R131). -/
def execWRow4 (dat : Byte) (s : State) : Host.Outcome State Fault Refusal := sendAlone (.row 4 dat) s

/-- W_ROW5 (41 R131). -/
def execWRow5 (dat : Byte) (s : State) : Host.Outcome State Fault Refusal := sendAlone (.row 5 dat) s

/-- W_ROW6 (41 R131). -/
def execWRow6 (dat : Byte) (s : State) : Host.Outcome State Fault Refusal := sendAlone (.row 6 dat) s

/-- W_ROW7 (41 R131). -/
def execWRow7 (dat : Byte) (s : State) : Host.Outcome State Fault Refusal := sendAlone (.row 7 dat) s

/-- W_DECODE_RAW (41 R132). -/
def execWDecodeRaw (s : State) : Host.Outcome State Fault Refusal := sendAlone .decodeRaw s

/-- W_INTENSITY (41 R133). -/
def execWIntensity (level : Byte) (s : State) : Host.Outcome State Fault Refusal := sendAlone (.intensity level) s

/-- W_POWER_ON (41 R134). -/
def execWPowerOn (s : State) : Host.Outcome State Fault Refusal := sendAlone .powerOn s

end Sys2Proof.Machine
end

