-- ==== Sys2Proof/Machine/Dispatch.lean ====
section
/-! DEFINITION. One arm for each constructor of Instr: the meaning of each instruction. -/

namespace Sys2Proof.Machine

def exec (i : Instr) (s : State) : Host.Outcome State Fault Refusal :=
  match i with
  | .new count level => Sys2Proof.Machine.execNew count level s
  | .brightness level => Sys2Proof.Machine.execBrightness level s
  | .clear => Sys2Proof.Machine.execClear s
  | .draw => Sys2Proof.Machine.execDraw s
  | .sInit => Sys2Proof.Machine.execSInit s
  | .sMeasure => Sys2Proof.Machine.execSMeasure s
  | .wNoop => Sys2Proof.Machine.execWNoop s
  | .wRow0 dat => Sys2Proof.Machine.execWRow0 dat s
  | .wRow1 dat => Sys2Proof.Machine.execWRow1 dat s
  | .wRow2 dat => Sys2Proof.Machine.execWRow2 dat s
  | .wRow3 dat => Sys2Proof.Machine.execWRow3 dat s
  | .wRow4 dat => Sys2Proof.Machine.execWRow4 dat s
  | .wRow5 dat => Sys2Proof.Machine.execWRow5 dat s
  | .wRow6 dat => Sys2Proof.Machine.execWRow6 dat s
  | .wRow7 dat => Sys2Proof.Machine.execWRow7 dat s
  | .wDecodeRaw => Sys2Proof.Machine.execWDecodeRaw s
  | .wIntensity level => Sys2Proof.Machine.execWIntensity level s
  | .wPowerOn => Sys2Proof.Machine.execWPowerOn s
  | .twCmdInit => Sys2Proof.Machine.execTwCmdInit s
  | .twCmdTrigger => Sys2Proof.Machine.execTwCmdTrigger s
  | .r48Calibrated reply => Sys2Proof.Machine.execR48Calibrated reply s
  | .r48Uncalibrated reply => Sys2Proof.Machine.execR48Uncalibrated reply s

end Sys2Proof.Machine
end

