-- ==== Sys2Proof/Machine/Step.lean ====
section
/-! DEFINITION. One step: the block takes the next issued word, decodes it and runs the instruction to its end (10_state
R20). With nothing issued it does nothing (70_reset R320). -/

namespace Sys2Proof.Machine

/-- One step of the machine. -/
def step (s : State) : Host.Outcome State Fault Refusal :=
  match fetch s with
  | none => .next s
  | some (q, t) =>
    match decode q with
    | .ok i => exec i t
    | .error _ => rejectWord q t

/-- `s` with the word `w`, of `nbits` bits numbered as the opcode table numbers them, on the bench (log entry 2). A wire
word is only ever fetched on a live display's link, so that link is set with it (log entry 13). -/
def State.withFetchWord (s : State) (nbits w : Nat) : State :=
  match issuedOfBits nbits w with
  | none => s
  | some q => (s.withLinkFor q).onBench q

end Sys2Proof.Machine
end

