-- ==== Sys2Proof/Machine/Host.lean ====
section
/-! DEFINITION. The host's side of the block: issuing operations, the pseudo-instructions of the host and the directives of
a test (30_encoding R94, R95), and the stage a failure is reported as (60_exceptions R287). The host's own software
(44_host_software) is outside the model. -/

namespace Sys2Proof.Machine

/-- The host word of an operation; `none` for an instruction that is no host operation (40_serial_port R117). -/
def hostWord (i : Instr) : Option H32 :=
  match encode i with
  | .h32 w => some w
  | .w16 _ => none
  | .s24 _ => none
  | .r48 _ => none

/-- The host issues the operation `i` after those already issued. What is no host operation it cannot issue
(40_serial_port R117); a NEW whose count no word carries goes out with a count out of range (`countField`, log entry 26). -/
def State.issue (i : Instr) (s : State) : State :=
  match hostWord i with
  | some w => { s with inbox := s.inbox ++ [w] }
  | none => s

/-- The host issues the operations of a program in order. -/
def State.program (is : List Instr) (s : State) : State := is.foldl (fun t i => t.issue i) s

/-- `HOLD <ms>`: the host waits; it issues nothing and adds nothing to TRACE (30_encoding R95). -/
def State.hold (_ms : Nat) (s : State) : State := s

/-- `CLEAN_EXIT`: one CLEAR, then the program ends (30_encoding R95). -/
def State.cleanExit (s : State) : State := s.issue .clear

/-- `REPLY b0, …, b5`: the next read BusOracle has no answer for yet is answered `r` (30_encoding R95). -/
def State.reply (r : Reply) (s : State) : State :=
  { s with busReads := { s.busReads with script := s.busReads.script ++ [some r] } }

/-- `FAIL <event>` for a two-wire read: the next read without an answer fails. -/
def State.failRead (s : State) : State :=
  { s with busReads := { s.busReads with script := s.busReads.script ++ [none] } }

/-- The next two-wire write without an answer is answered `ok` or `fail`. -/
def State.answerWrite (ok : Bool) (s : State) : State :=
  { s with busWrites := { s.busWrites with script := s.busWrites.script ++ [ok] } }

/-- The next `k` questions to PinOracle without an answer are answered `ok`. -/
def State.passPins (k : Nat) (s : State) : State :=
  { s with pins := { s.pins with script := s.pins.script ++ List.replicate k true } }

/-- `FAIL <event>` for a line write or claim: the next question to PinOracle without an answer is answered `fail`. -/
def State.failPin (s : State) : State := { s with pins := { s.pins with script := s.pins.script ++ [false] } }

/-- The pixel source of the next DRAW that has none yet, as data (30_encoding R94: the name after DRAW). A DRAW that is
refused leaves it to the next one (DESIGN CHOICE, log entry 7). -/
def State.present (canvas : List Pixel) (s : State) : State :=
  { s with canvases := { s.canvases with script := s.canvases.script ++ [canvas] } }

/-- The stages of the process-level outcome (60_exceptions R287). -/
inductive Stage where
  | displayConstruction
  | sensorInit
  | measurement
  | draw
deriving DecidableEq, Repr

/-- The stage that failed, from the operation and its error (60_exceptions R287): every error of NEW is display
construction, and Data of any other operation is draw. -/
def failedStage (constructing : Bool) (e : Err) : Stage :=
  if constructing then .displayConstruction
  else
    match e with
    | .countExceeded => .displayConstruction
    | .connection => .displayConstruction
    | .data => .draw
    | .sensorInit => .sensorInit
    | .sensorMeasure => .measurement
    | .uncalibrated => .measurement

end Sys2Proof.Machine
end

