-- ==== Sys2Proof/Safety.lean ====
section
/-! DEFINITION. The terms the statements use: what a list of line events leaves, what a failed line write leaves, the
frames an operation sends, the invariant of the block (10_state R34), host programs, and what is left of a state or an
outcome when the observer or the operation's own registers are forgotten. -/

namespace Sys2Proof.Machine

/-! ### What line events leave -/

/-- The lines after line events, each of which leaves its line at its level (40_serial_port R110, R111). -/
def Lines.follow (ls : Lines) (events : List Event) : Lines :=
  events.foldl
    (fun acc e =>
      match e with
      | .set l v => acc.withLevel l (lineLevelOf v)
      | .claim l => acc.put l ⟨true, lineLevelOf Config.claimLevel⟩
      | .twWrite _ _ => acc
      | .twRead _ _ _ => acc
      | .delay _ => acc)
    ls

/-- The state after line events, none of which failed: one question to PinOracle for each, the levels, the trace and the
observer; nothing else. -/
def State.emitted (events : List Event) (s : State) : State :=
  { s with
    pins := s.pins.skip events.length
    lines := s.lines.follow events
    tape := events.reverse ++ s.tape
    modules := s.modules.watch s.moduleCount events }

/-- The state after a drive of line `l` that failed: one question, the level Unknown (40_serial_port R112); nothing
else. -/
def State.lost (l : Line) (s : State) : State :=
  { s with
    pins := s.pins.skip 1
    lines := s.lines.withLevel l .unknown
    modules := s.modules.onLost l }

/-- The state with other sequencer coordinates. -/
def State.withSeq (q : SeqPos) (s : State) : State := { s with seq := q }

/-- The state when an operation has ended with the result `r`: the result is returned, the operation's own registers and
the coordinates have no value. -/
def State.ended (r : Result) (s : State) : State :=
  { s with results := s.results ++ [r], scratch := Scratch.empty, seq := SeqPos.idle }

/-- The state when an operation has ended with the error `e` at the coordinates `cut`. -/
def State.failed (e : Err) (cut : SeqPos) (s : State) : State :=
  { s with results := s.results ++ [.err e], scratch := Scratch.empty, seq := SeqPos.idle, lastCut := cut }

/-! ### What operations send -/

/-- The events of frames sent one after another. -/
def framesEvents (bufs : List (List Byte)) : List Event := bufs.flatMap frameEvents

/-- The frames that send one word, `sel dat`, to each of `n` modules, positions upward (42 R160, R162). -/
def moduleFrames (n : Nat) (sel dat : Byte) : List (List Byte) :=
  (List.range n).map fun i => wireBuffer n i sel dat

/-- The frames that write row `r` of module `i` with `d i r`, modules upward and rows upward (42 R163, R166). -/
def rowFrames (n : Nat) (d : Nat → Nat → Byte) : List (List Byte) :=
  (List.range n).flatMap fun i => (List.range 8).map fun r => wireBuffer n i (BitVec.ofNat 8 (r + 1)) (d i r)

/-- The frames of CLEAR (42 R163). -/
def clearFrames (n : Nat) : List (List Byte) := rowFrames n fun _ _ => 0x00#8

/-- The frames of BRIGHTNESS (42 R162). -/
def brightnessFrames (n : Nat) (level : Byte) : List (List Byte) := moduleFrames n 0x0A#8 level

/-- The frames of DRAW of a pixel source (42 R165, R166). -/
def drawFrames (n : Nat) (p : Nat → Nat → Byte) : List (List Byte) := rowFrames n (rowByte p)

/-- The frames of NEW: power on, decode raw, clear, brightness (42 R160). -/
def newFrames (n : Nat) (level : Byte) : List (List Byte) :=
  moduleFrames n 0x0C#8 0x01#8 ++ moduleFrames n 0x09#8 0x00#8 ++ clearFrames n ++ brightnessFrames n level

/-- The claims of NEW, in order (42 R160). -/
def claimEvents : List Event := [.claim .data, .claim .cs, .claim .clk]

/-- The instruction is one of the three operations on a live display that only send frames. -/
def displayFrames (p : Nat → Nat → Byte) (n : Nat) : Instr → Option (List (List Byte))
  | .brightness level => some (brightnessFrames n level)
  | .clear => some (clearFrames n)
  | .draw => some (drawFrames n p)
  | .new _ _ => none
  | .sInit => none
  | .sMeasure => none
  | .wNoop => none
  | .wRow0 _ => none
  | .wRow1 _ => none
  | .wRow2 _ => none
  | .wRow3 _ => none
  | .wRow4 _ => none
  | .wRow5 _ => none
  | .wRow6 _ => none
  | .wRow7 _ => none
  | .wDecodeRaw => none
  | .wIntensity _ => none
  | .wPowerOn => none
  | .twCmdInit => none
  | .twCmdTrigger => none
  | .r48Calibrated _ => none
  | .r48Uncalibrated _ => none

/-- The coordinates of line write `x` of frame number `f` of an operation on a live display (10_state R27): CLEAR and DRAW
send eight frames to each module, BRIGHTNESS one. A row where there is none is the model's choice (log entry 33). -/
def displayCut (f : Nat) (x : LineWrite) : Instr → SeqPos
  | .brightness _ => ⟨.brightness, .none, f, 0, x.b, x.k, x.sub⟩
  | .clear => ⟨.clear, .none, f / 8, f % 8, x.b, x.k, x.sub⟩
  | .draw => ⟨.draw, .write, f / 8, f % 8, x.b, x.k, x.sub⟩
  | .new _ _ => SeqPos.idle
  | .sInit => SeqPos.idle
  | .sMeasure => SeqPos.idle
  | .wNoop => SeqPos.idle
  | .wRow0 _ => SeqPos.idle
  | .wRow1 _ => SeqPos.idle
  | .wRow2 _ => SeqPos.idle
  | .wRow3 _ => SeqPos.idle
  | .wRow4 _ => SeqPos.idle
  | .wRow5 _ => SeqPos.idle
  | .wRow6 _ => SeqPos.idle
  | .wRow7 _ => SeqPos.idle
  | .wDecodeRaw => SeqPos.idle
  | .wIntensity _ => SeqPos.idle
  | .wPowerOn => SeqPos.idle
  | .twCmdInit => SeqPos.idle
  | .twCmdTrigger => SeqPos.idle
  | .r48Calibrated _ => SeqPos.idle
  | .r48Uncalibrated _ => SeqPos.idle

/-- The coordinates of line write `x` of frame number `f` of a NEW of `n` modules (10_state R27, 42 R160): the phases POWER
and DECODE of one frame a module, CLEAR of eight, BRIGHT of one. A row where there is none is the model's choice (log
entry 33). -/
def newCut (n f : Nat) (x : LineWrite) : SeqPos :=
  if f < n then ⟨.new, .power, f, 0, x.b, x.k, x.sub⟩
  else if f < 2 * n then ⟨.new, .decode, f - n, 0, x.b, x.k, x.sub⟩
  else if f < 10 * n then ⟨.new, .clear, (f - 2 * n) / 8, (f - 2 * n) % 8, x.b, x.k, x.sub⟩
  else ⟨.new, .bright, f - 10 * n, 0, x.b, x.k, x.sub⟩

/-- The word `sel dat` an instruction addresses one module with, for the wire commands that send a frame
(30_encoding R87). -/
def frameWord : Instr → Option (Byte × Byte)
  | .wRow0 d => some (0x01#8, d)
  | .wRow1 d => some (0x02#8, d)
  | .wRow2 d => some (0x03#8, d)
  | .wRow3 d => some (0x04#8, d)
  | .wRow4 d => some (0x05#8, d)
  | .wRow5 d => some (0x06#8, d)
  | .wRow6 d => some (0x07#8, d)
  | .wRow7 d => some (0x08#8, d)
  | .wDecodeRaw => some (0x09#8, 0x00#8)
  | .wIntensity level => some (0x0A#8, level)
  | .wPowerOn => some (0x0C#8, 0x01#8)
  | .wNoop => none
  | .new _ _ => none
  | .brightness _ => none
  | .clear => none
  | .draw => none
  | .sInit => none
  | .sMeasure => none
  | .twCmdInit => none
  | .twCmdTrigger => none
  | .r48Calibrated _ => none
  | .r48Uncalibrated _ => none

/-! ### Invariants and runs -/

/-- The two events that a successful S_INIT emits (43_sensor R205). -/
def initEvents : List Event := [.twWrite Config.sensorAddr Config.cmdInit, .delay Config.tInitMs]

/-- The invariant between operations (10_state R34 (a), (b), (c), R24 to R30): a live display owns its lines and has a
count in range; without a display no line is owned and CFG has no value; a ready sensor was initialised; no operation's
own register has a value. -/
structure State.Inv (s : State) : Prop where
  live : s.disp = .live → s.lines.allOwned = true ∧ ∃ n, 1 ≤ n ∧ n ≤ Config.nMax ∧ s.cfg = some (configOf n)
  absent : s.disp = .absent → s.lines.noneOwned = true ∧ s.cfg = none
  ready : s.sns = .ready → initEvents <:+: s.trace
  idle : s.scratch = Scratch.empty ∧ s.seq = SeqPos.idle

/-- Nothing stands on the bench: what runs next is a host word, or nothing (40_serial_port R117; log entry 2). -/
def State.HostProgram (s : State) : Prop := s.bench = none

/-- No operation of the run was refused: the premise under which a program has a meaning (60_exceptions R288; log entry
4). -/
def State.Meaningful (s : State) : Prop := ∀ r ∈ s.results, ∀ reason, r ≠ .refused reason

/-- The platform's premise on the pins (70_reset R324, 00_scope R10): the three lines are distinct. -/
def PinsDistinct : Prop :=
  Config.pinData ≠ Config.pinCs ∧ Config.pinData ≠ Config.pinClk ∧ Config.pinCs ≠ Config.pinClk

/-! ### Forgetting -/

/-- The state with its observer forgotten. -/
def State.withoutModules (s : State) : State := { s with modules := Observer.unspecified }

/-- The state with the operation's own registers forgotten. -/
def State.withoutScratch (s : State) : State := { s with scratch := Scratch.empty }

/-- An outcome with its next state changed. -/
def mapNext (f : State → State) (o : Host.Outcome State Fault Refusal) : Host.Outcome State Fault Refusal :=
  match o with
  | .next t => .next (f t)
  | .fault r => .fault r
  | .refused r => .refused r

/-- An event of the display link. -/
def Event.isLine : Event → Bool
  | .claim _ => true
  | .set _ _ => true
  | .twWrite _ _ => false
  | .twRead _ _ _ => false
  | .delay _ => false

/-- The observer can follow the next frame of a chain of `n` modules: it is not stuck, CLK is Low, and it holds the `n`
modules. What the chain held before does not matter: the frame pushes it out (70 R335). -/
def Observer.canFollow (n : Nat) (o : Observer) : Prop :=
  o.stuck = false ∧ o.clk = .low ∧ n ≤ o.mods.length ∧ ∀ m ∈ o.mods, m.rows.length = 8

/-- What a successful CLEAR leaves of a module: every row blank, nothing else changed (41 R146). -/
def MatrixModule.blanked (m : MatrixModule) : MatrixModule := { m with rows := List.replicate 8 (some 0x00#8) }

/-- The instructions that go to the modules: the display operations and the wire commands. The others go to the sensor
(20_memory R55). -/
def touchesLink : Instr → Bool
  | .new _ _ => true
  | .brightness _ => true
  | .clear => true
  | .draw => true
  | .wNoop => true
  | .wRow0 _ => true
  | .wRow1 _ => true
  | .wRow2 _ => true
  | .wRow3 _ => true
  | .wRow4 _ => true
  | .wRow5 _ => true
  | .wRow6 _ => true
  | .wRow7 _ => true
  | .wDecodeRaw => true
  | .wIntensity _ => true
  | .wPowerOn => true
  | .sInit => false
  | .sMeasure => false
  | .twCmdInit => false
  | .twCmdTrigger => false
  | .r48Calibrated _ => false
  | .r48Uncalibrated _ => false

/-- The instruction is one of the six host operations, the only ones a host word stands for (30_encoding R82). -/
def hostOperation : Instr → Bool
  | .new _ _ => true
  | .brightness _ => true
  | .clear => true
  | .draw => true
  | .sInit => true
  | .sMeasure => true
  | .wNoop => false
  | .wRow0 _ => false
  | .wRow1 _ => false
  | .wRow2 _ => false
  | .wRow3 _ => false
  | .wRow4 _ => false
  | .wRow5 _ => false
  | .wRow6 _ => false
  | .wRow7 _ => false
  | .wDecodeRaw => false
  | .wIntensity _ => false
  | .wPowerOn => false
  | .twCmdInit => false
  | .twCmdTrigger => false
  | .r48Calibrated _ => false
  | .r48Uncalibrated _ => false

/-! ### Binary32 values -/

/-- The rational number a finite binary32 pattern stands for (00_scope R17, IEEE 754). -/
def f32Value (b : F32) : Rat :=
  let e := (b.extractLsb' 23 8).toNat
  let f := (b.extractLsb' 0 23).toNat
  (if b.getLsbD 31 then -1 else 1) * ((if e = 0 then f else 2 ^ 23 + f : Nat) : Rat) * (2 : Rat) ^ ((max e 1 : Int) - 150)

/-- The pattern is `+0.0` or a normal number: no NaN, infinity, subnormal or negative zero (43_sensor R215). -/
def f32Ordinary (b : F32) : Prop :=
  b = 0 ∨ ((b.extractLsb' 23 8).toNat ≠ 0 ∧ (b.extractLsb' 23 8).toNat ≠ 255)

/-- `m / 2` rounded to the nearest integer, a half going to the even one (43_sensor R215, `RNE`). -/
def halfToEven (m : Nat) : Nat := m / 2 + (if m % 2 = 1 ∧ m / 2 % 2 = 1 then 1 else 0)

end Sys2Proof.Machine
end

