-- ==== Sys2Proof/Certificates/Slice0/Obligations.lean ====
section
/-! DEFINITION. The statements for the provers. Where a statement rests on a decision the spec took itself (D<n>) or on a
choice of the model (log entry <n>), its docstring says so. -/

open Sys2Proof Sys2Proof.Machine

/-! ### Encodings -/

/-- Decoding the encoding of a well-formed instruction gives it back, every operand at every value. The host word is the
spec's decision D11, the wire words are D7. -/
def Obligations.DecodeEncodeAgree : Prop :=
  ∀ i : Instr, wellFormed i = true → decode (encode i) = .ok i

/-- Every word the decoder accepts is the encoding of a well-formed instruction: no bit of a word is dropped. D7, D11. -/
def Obligations.EncodeDecodeAgree : Prop :=
  ∀ (q : Issued) (i : Instr), decode q = .ok i → wellFormed i = true ∧ encode i = q

/-- The word of every row of the opcode table in the spec's numbers, with every operand at every value, decodes to the
row's instruction (30_encoding R82, R83, R87, R90, R91, R96); and so do the words that 95_test_vectors V40, V42 and V43 write
out. The host word is the spec's decision D11, the wire numbers are D7. -/
def Obligations.SpecWordsDecode : Prop :=
  (∀ count level : Byte, decode (.h32 (0x01#8 ++ count ++ level ++ 0x00#8)) = .ok (.new count.toNat level)) ∧
  (∀ level : Byte, decode (.h32 (0x02#8 ++ level ++ 0x00#8 ++ 0x00#8)) = .ok (.brightness level)) ∧
  decode (.h32 0x03000000#32) = .ok .clear ∧
  decode (.h32 0x04000000#32) = .ok .draw ∧
  decode (.h32 0x10000000#32) = .ok .sInit ∧
  decode (.h32 0x11000000#32) = .ok .sMeasure ∧
  decode (.w16 0x0000#16) = .ok .wNoop ∧
  (∀ row : Byte,
    decode (.w16 (0x01#8 ++ row)) = .ok (.wRow0 row) ∧
    decode (.w16 (0x02#8 ++ row)) = .ok (.wRow1 row) ∧
    decode (.w16 (0x03#8 ++ row)) = .ok (.wRow2 row) ∧
    decode (.w16 (0x04#8 ++ row)) = .ok (.wRow3 row) ∧
    decode (.w16 (0x05#8 ++ row)) = .ok (.wRow4 row) ∧
    decode (.w16 (0x06#8 ++ row)) = .ok (.wRow5 row) ∧
    decode (.w16 (0x07#8 ++ row)) = .ok (.wRow6 row) ∧
    decode (.w16 (0x08#8 ++ row)) = .ok (.wRow7 row)) ∧
  decode (.w16 0x0900#16) = .ok .wDecodeRaw ∧
  (∀ level : Byte, decode (.w16 (0x0A#8 ++ level)) = .ok (.wIntensity level)) ∧
  decode (.w16 0x0C01#16) = .ok .wPowerOn ∧
  decode (.s24 0xE10800#24) = .ok .twCmdInit ∧
  decode (.s24 0xAC3300#24) = .ok .twCmdTrigger ∧
  (∀ b0 b1 b2 b3 b4 b5 : Byte,
    decode (.r48 (b0 ++ b1 ++ b2 ++ b3 ++ b4 ++ b5)) =
      .ok (if b0.getLsbD 3 then .r48Calibrated ⟨b0, b1, b2, b3, b4, b5⟩ else .r48Uncalibrated ⟨b0, b1, b2, b3, b4, b5⟩)) ∧
  decode (.h32 0x01021F00#32) = .ok (.new 2 0x1F#8) ∧
  decode (.h32 0x02FF0000#32) = .ok (.brightness 0xFF#8) ∧
  decode (.w16 0x05C3#16) = .ok (.wRow4 0xC3#8) ∧
  decode (.r48 0x981EA23522A0#48) = .ok (.r48Calibrated ⟨0x98#8, 0x1E#8, 0xA2#8, 0x35#8, 0x22#8, 0xA0#8⟩)

/-- A host word is illegal exactly for the reasons of 30_encoding R85, and is then refused with no event and no change of
state but the word taken and the result returned. The host word is the spec's decision D11; that the refusal is a next
state is log entry 4. -/
def Obligations.IllegalHostWordRefused : Prop :=
  ∀ (s : State) (w : H32) (rest : List H32), s.bench = none → s.inbox = w :: rest →
    if h32Opc w ∉ [0x01#8, 0x02#8, 0x03#8, 0x04#8, 0x10#8, 0x11#8] ∨ h32Z w ≠ 0x00#8 ∨
        (h32Opc w = 0x02#8 ∧ h32B w ≠ 0x00#8) ∨
        (h32Opc w ∈ [0x03#8, 0x04#8, 0x10#8, 0x11#8] ∧ (h32A w ≠ 0x00#8 ∨ h32B w ≠ 0x00#8)) then
      step s = .next { s with inbox := rest, results := s.results ++ [.refused .illegalCommand] }
    else ∃ i, decode (.h32 w) = .ok i

/-- A wire word decodes exactly when it is one of 30_encoding R87's table; any other is refused by name where it is run
alone. The numbers are the spec's decision D7; the refusal of the others is log entry 25, that a word is run alone is
entry 2. -/
def Obligations.NeverSentWordsRefused : Prop :=
  ∀ (s : State) (w : W16), s.bench = some (.w16 w) →
    if w = 0x0000#16 ∨ (0x01#8 ≤ w16Sel w ∧ w16Sel w ≤ 0x08#8) ∨ w = 0x0900#16 ∨ w16Sel w = 0x0A#8 ∨ w = 0x0C01#16 then
      ∃ i, decode (.w16 w) = .ok i
    else step s = .refused .neverSentWord

/-- Every word a frame can address a module with is a wire command of 30_encoding R87: no frame carries a word of R89.
D7. -/
def Obligations.FramesCarryWireCommands : Prop :=
  ∀ w : Wire, ∃ i, decode (.w16 (w16Word w.sel w.dat)) = .ok i ∧ frameWord i = some (w.sel, w.dat)

/-- The result word of 30_encoding R84: the codes are the spec's decision D12. -/
def Obligations.ResultWords : Prop :=
  (∀ t h, Result.word (.reading t h) = (0x00#8, some t, some h)) ∧
  Result.word .ok = (0x00#8, none, none) ∧
  Result.word (.err .countExceeded) = (0x01#8, none, none) ∧
  Result.word (.err .connection) = (0x02#8, none, none) ∧
  Result.word (.err .data) = (0x03#8, none, none) ∧
  Result.word (.err .sensorInit) = (0x04#8, none, none) ∧
  Result.word (.err .sensorMeasure) = (0x05#8, none, none) ∧
  Result.word (.err .uncalibrated) = (0x06#8, none, none) ∧
  ∀ reason, Result.word (.refused reason) = (0xFF#8, none, none)

/-! ### The step -/

/-- A step takes the next host word and runs the instruction it decodes to; an item on the bench goes before it. The queue
of host words is log entry 1, the bench is log entry 2. -/
def Obligations.StepRunsDecoded : Prop :=
  ∀ (s : State) (i : Instr),
    (∀ (w : H32) (rest : List H32), s.bench = none → s.inbox = w :: rest → decode (.h32 w) = .ok i →
      step s = exec i { s with inbox := rest }) ∧
    ∀ q : Issued, s.bench = some q → decode q = .ok i → step s = exec i { s with bench := none }

/-- The host can invoke the six host operations and nothing else (40_serial_port R117, 30_encoding R80, R82). Issuing any
other instruction changes nothing, issuing one of the six queues its word; and a step that ran no item of the bench found
nothing to run, or took the next word and refused it because it decodes to no instruction, or ran the one of the six it
decodes to, and it leaves the bench empty. The queue is log entry 1, the bench log entry 2, the word of a count that no
word carries log entry 26; that the refusal of 30_encoding R85 is a next state is log entry 4. -/
def Obligations.HostReachesOnlyItsOperations : Prop :=
  (∀ (i : Instr) (s : State), hostOperation i = false → s.issue i = s) ∧
  (∀ (i : Instr) (s : State), hostOperation i = true →
    ∃ w : H32, encode i = .h32 w ∧ s.issue i = { s with inbox := s.inbox ++ [w] }) ∧
  ∀ s t : State, s.bench = none → step s = .next t →
    t.bench = none ∧
      (t = s ∨ ∃ (w : H32) (rest : List H32), s.inbox = w :: rest ∧
        (((∃ e, decode (.h32 w) = .error e) ∧
            t = { s with inbox := rest, results := s.results ++ [.refused .illegalCommand] }) ∨
          ∃ i : Instr, decode (.h32 w) = .ok i ∧ hostOperation i = true ∧ exec i { s with inbox := rest } = .next t))

/-- With nothing issued and nothing on the bench a step changes nothing (70_reset R320; log entries 1 and 2). -/
def Obligations.StepIdlesWithoutWords : Prop :=
  ∀ s : State, s.bench = none → s.inbox = [] → step s = .next s

/-- A word placed by `withFetchWord` is the one the very next step runs, and the bench is empty after it (log entries 2
and 13). -/
def Obligations.FetchedWordRuns : Prop :=
  ∀ (s : State) (nbits w : Nat) (q : Issued) (i : Instr), issuedOfBits nbits w = some q → decode q = .ok i →
    step (s.withFetchWord nbits w) = exec i { s.withLinkFor q with bench := none }

/-! ### NEW -/

/-- A count outside `[1, 16]` is rejected before anything is opened or claimed: between operations, nothing changes but
the result returned; no oracle is asked (60_exceptions R281). The record of the cut is the model's own (log entries 18
and 33). -/
def Obligations.NewRejectsCount : Prop :=
  ∀ (n : Nat) (level : Byte) (s : State), s.disp = .absent → n < 1 ∨ 16 < n → s.scratch = Scratch.empty →
    s.seq = SeqPos.idle →
    exec (.new n level) s =
      .next { s with
        results := s.results ++ [.err .countExceeded]
        lastCut := { SeqPos.idle with op := .new } }

/-- A NEW that the host issues with a count outside `[1, 16]`, any natural number, is rejected the same way (42 R161,
60_exceptions R281). How a count that no word carries goes out is the model's choice (log entry 26), the record of the cut
its own (log entries 18 and 33). -/
def Obligations.IssuedCountIsRejected : Prop :=
  ∀ (n : Nat) (level : Byte) (s : State), s.bench = none → s.inbox = [] → s.disp = .absent → n < 1 ∨ 16 < n →
    s.scratch = Scratch.empty → s.seq = SeqPos.idle →
    step (s.issue (.new n level)) =
      .next { s with
        results := s.results ++ [.err .countExceeded]
        lastCut := { SeqPos.idle with op := .new } }

/-- NEW with a count in range, every claim and line write passing, ends with a live display: the three claims and the
frames of the four phases are sent, CFG is written, the lines are owned with CS High, CLK Low and DATA at bit 0 of the
level (42 R160, 10_state R37). The order of frames and of claims is the spec's decision D8, the release level D2. -/
def Obligations.NewSucceeds : Prop :=
  ∀ (n : Nat) (level : Byte) (s : State), s.disp = .absent → 1 ≤ n → n ≤ 16 → s.pinsOk (4 + 11 * n * (2 + 48 * n)) →
    exec (.new n level) s =
      .next { s with
        cfg := some (configOf n)
        disp := .live
        lines := ⟨⟨true, if level.getLsbD 0 then .high else .low⟩, ⟨true, .low⟩, ⟨true, .high⟩⟩
        scratch := Scratch.empty
        seq := SeqPos.idle
        tape := (claimEvents ++ framesEvents (newFrames n level)).reverse ++ s.tape
        results := s.results ++ [.ok]
        pins := s.pins.skip (4 + 11 * n * (2 + 48 * n))
        modules := (s.modules.watch n claimEvents).watch n (framesEvents (newFrames n level)) }

/-- NEW with a count in range whose question `k` of the four of the phase CLAIM (the device, DATA, CS, CLK) is answered
`fail`: Connection, the claims made before stay in TRACE, every line is released (60_exceptions R282). D14, D23. The
record of the cut is the model's own (log entries 18 and 33). -/
def Obligations.NewClaimFails : Prop :=
  ∀ (n : Nat) (level : Byte) (s : State) (k : Nat), s.disp = .absent → 1 ≤ n → n ≤ 16 → k < 4 → s.pinsOk k →
    s.pinAnswer k = false →
    exec (.new n level) s =
      .next { s with
        lines := if k = 0 then s.lines else (s.lines.follow (claimEvents.take (k - 1))).released
        scratch := Scratch.empty
        seq := SeqPos.idle
        tape := (claimEvents.take (k - 1)).reverse ++ s.tape
        results := s.results ++ [.err .connection]
        lastCut := { SeqPos.idle with op := .new, phase := .claim }
        pins := s.pins.skip (k + 1)
        modules := if k = 0 then s.modules else (s.modules.watch n (claimEvents.take (k - 1))).onRelease }

/-- NEW whose line write `m` of frame `f` of the sending phases fails: Data, the events before it stay in TRACE, the lines
are released with their levels as left, no display, CFG without value (60_exceptions R291), and the cut is at that write's
coordinates (10_state R27). D13, D14. That the coordinates are kept is the model's choice (log entry 18), and so are those a
phase does not use (log entry 33). -/
def Obligations.NewCutBySendingFailure : Prop :=
  ∀ (n : Nat) (level : Byte) (s : State) (f m j : Nat) (buf : List Byte) (x : LineWrite),
    s.disp = .absent → 1 ≤ n → n ≤ 16 → (newFrames n level)[f]? = some buf → (frameWrites buf)[m]? = some x →
    j = f * (2 + 48 * n) + m → s.pinsOk (4 + j) → s.pinAnswer (4 + j) = false →
    exec (.new n level) s =
      .next { s with
        cfg := none
        lines :=
          ((s.lines.follow (claimEvents ++ (framesEvents (newFrames n level)).take j)).withLevel x.line .unknown).released
        scratch := Scratch.empty
        seq := SeqPos.idle
        tape := (claimEvents ++ (framesEvents (newFrames n level)).take j).reverse ++ s.tape
        results := s.results ++ [.err .data]
        lastCut := newCut n f x
        pins := s.pins.skip (5 + j)
        modules :=
          (((s.modules.watch n claimEvents).watch n ((framesEvents (newFrames n level)).take j)).onLost x.line).onRelease }

/-- NEW while a display is live is refused: no event, no change but the result (42 R167). D22; log entry 4. -/
def Obligations.NewRefusedWhileLive : Prop :=
  ∀ (n : Nat) (level : Byte) (s : State), s.disp = .live →
    exec (.new n level) s = .next { s with results := s.results ++ [.refused .alreadyLive] }

/-! ### BRIGHTNESS, CLEAR, DRAW -/

/-- BRIGHTNESS on a live display, every line write passing: one frame for each module, the level whole (42 R162). D28. -/
def Obligations.BrightnessSucceeds : Prop :=
  ∀ (level : Byte) (s : State) (c : Cfg), s.disp = .live → s.cfg = some c → s.lines.allOwned = true →
    s.pinsOk (c.n * (2 + 48 * c.n)) →
    exec (.brightness level) s =
      .next { s.emitted (framesEvents (brightnessFrames c.n level)) with
        scratch := Scratch.empty
        seq := SeqPos.idle
        results := s.results ++ [.ok] }

/-- CLEAR on a live display, every line write passing: eight zero rows for each module (42 R163). D9. -/
def Obligations.ClearSucceeds : Prop :=
  ∀ (s : State) (c : Cfg), s.disp = .live → s.cfg = some c → s.lines.allOwned = true →
    s.pinsOk (8 * c.n * (2 + 48 * c.n)) →
    exec .clear s =
      .next { s.emitted (framesEvents (clearFrames c.n)) with
        scratch := Scratch.empty
        seq := SeqPos.idle
        results := s.results ++ [.ok] }

/-- DRAW on a live display, every line write passing: the row bytes of the pixel source presented, every row of every
module; one pixel source is taken (42 R164 to R166). D10, D20. -/
def Obligations.DrawSucceeds : Prop :=
  ∀ (s : State) (c : Cfg), s.disp = .live → s.cfg = some c → s.lines.allOwned = true →
    s.pinsOk (8 * c.n * (2 + 48 * c.n)) →
    exec .draw s =
      .next { s.emitted (framesEvents (drawFrames c.n s.pixels)) with
        scratch := Scratch.empty
        seq := SeqPos.idle
        results := s.results ++ [.ok]
        canvases := s.canvases.skip 1 }

/-- BRIGHTNESS, CLEAR and DRAW whose line write `m` of frame `f` fails: Data, exactly the events before it are in TRACE, its
line is Unknown, nothing is tidied, the display stays live (60_exceptions R291, 40_serial_port R112), and the cut is at that
write's coordinates (10_state R27). D13. That the coordinates are kept is the model's choice (log entry 18), and so are
those a phase does not use (log entry 33). -/
def Obligations.DisplayOperationCut : Prop :=
  ∀ (i : Instr) (s : State) (c : Cfg) (bufs : List (List Byte)) (buf : List Byte) (f m j : Nat) (x : LineWrite),
    s.disp = .live → s.cfg = some c → s.lines.allOwned = true → displayFrames s.pixels c.n i = some bufs →
    bufs[f]? = some buf → (frameWrites buf)[m]? = some x → j = f * (2 + 48 * c.n) + m → s.pinsOk j →
    s.pinAnswer j = false →
    exec i s =
      .next { (s.emitted ((framesEvents bufs).take j)).lost x.line with
        scratch := Scratch.empty
        seq := SeqPos.idle
        results := s.results ++ [.err .data]
        lastCut := displayCut f x i
        canvases := if i = .draw then s.canvases.skip 1 else s.canvases }

/-- BRIGHTNESS, CLEAR and DRAW without a display are refused: no event, no oracle asked, no change but the result
(42 R167). D22; log entry 4. -/
def Obligations.RefusedWithoutDisplay : Prop :=
  ∀ (i : Instr) (s : State), s.disp = .absent → (i = .clear ∨ i = .draw ∨ ∃ level, i = .brightness level) →
    exec i s = .next { s with results := s.results ++ [.refused .noDisplay] }

/-- The event counts of 42_display_operations R168, for every count. -/
def Obligations.EventCounts : Prop :=
  ∀ (n : Nat) (level : Byte) (p : Nat → Nat → Byte),
    (claimEvents ++ framesEvents (newFrames n level)).length = 3 + 11 * n * (2 + 48 * n) ∧
    (framesEvents (brightnessFrames n level)).length = n * (2 + 48 * n) ∧
    (framesEvents (clearFrames n)).length = 8 * n * (2 + 48 * n) ∧
    (framesEvents (drawFrames n p)).length = 8 * n * (2 + 48 * n)

/-- Bit `7 − c` of the byte DRAW builds for module `i`, row `y`, is set exactly when the pixel source is not zero at
`(c + 8·i, y)` (20_memory R56). -/
def Obligations.PixelToBit : Prop :=
  ∀ (p : Nat → Nat → Byte) (n i y c : Nat), i < n → y < 8 → c < 8 →
    ((fbByte (frameBuffer p n) i y).getLsbD (7 - c) = true ↔ p (c + 8 * i) y ≠ 0)

/-- DRAW depends on the pixels of the canvas alone (20_memory R64), and a source that is zero everywhere sends the frames
of CLEAR (42 R164). -/
def Obligations.DrawReadsTheCanvasOnly : Prop :=
  ∀ (n : Nat) (p q : Nat → Nat → Byte), (∀ x y, x < 8 * n → y < 8 → p x y = q x y) →
    drawFrames n p = drawFrames n q ∧ drawFrames n (fun _ _ => 0) = clearFrames n

/-! ### The serial port -/

/-- A frame opens with CS Low, sends every byte most significant bit first with DATA, CLK High, CLK Low for each bit, and
closes with CS High; and the coordinates of each line write are its place (40_serial_port R113, R114, 10_state R27). The
order of bits and the polarities are the spec's decisions D3 and D4; `b` and `k` at CS_LOW are the model's choice (log entry
33). -/
def Obligations.FrameWritesInOrder : Prop :=
  ∀ buf : List Byte,
    (frameWrites buf).length = 2 + 24 * buf.length ∧
    (frameWrites buf)[0]? = some ⟨.cs, .low, 0, 7, .csLow⟩ ∧
    (∃ b k, (frameWrites buf)[1 + 24 * buf.length]? = some ⟨.cs, .high, b, k, .csHigh⟩) ∧
    ∀ b k, b < buf.length → k < 8 →
      (frameWrites buf)[1 + 24 * b + 3 * (7 - k)]? =
        some ⟨.data, if (buf.getD b 0).getLsbD k then .high else .low, b, k, .data⟩ ∧
      (frameWrites buf)[1 + 24 * b + 3 * (7 - k) + 1]? = some ⟨.clk, .high, b, k, .clkHigh⟩ ∧
      (frameWrites buf)[1 + 24 * b + 3 * (7 - k) + 2]? = some ⟨.clk, .low, b, k, .clkLow⟩

/-- The transfer buffer of a register write: the word at bytes `2i` and `2i + 1`, zero everywhere else (40_serial_port
R115). The layout is the spec's decision D6. -/
def Obligations.WordPlacedAtPosition : Prop :=
  ∀ (n i : Nat) (sel dat : Byte) (b : Nat), i < n →
    (wireBuffer n i sel dat).length = 2 * n ∧
    (wireBuffer n i sel dat).getD b 0 = if b = 2 * i then sel else if b = 2 * i + 1 then dat else 0x00#8

/-- The lines after a whole frame: CS High, CLK Low, DATA at bit 0 of the last byte, ownership as before (40_serial_port
R118). D3, D4. -/
def Obligations.LinesAfterFrame : Prop :=
  ∀ (ls : Lines) (buf : List Byte) (last : Byte),
    ls.follow (frameEvents (buf ++ [last])) =
      { data := { ls.data with level := if last.getLsbD 0 then .high else .low }
        clk := { ls.clk with level := .low }
        cs := { ls.cs with level := .high } }

/-! ### Wire commands -/

/-- W_ROW0 to W_ROW7 at a position of the chain, lines owned, every line write passing: one frame that carries register
select `0x01 + r` and the row byte, and no other change (41 R131). D6, D7; issued alone: log entry 17; no premise on DISP: log
entry 12. -/
def Obligations.RowCommandsSendOneFrame : Prop :=
  ∀ (dat : Byte) (s : State) (c : Cfg), s.cfg = some c → s.lines.allOwned = true → s.seq.i < c.n →
    s.pinsOk (2 + 48 * c.n) →
    ∀ x ∈ ([(.wRow0 dat, 0x01#8), (.wRow1 dat, 0x02#8), (.wRow2 dat, 0x03#8), (.wRow3 dat, 0x04#8),
        (.wRow4 dat, 0x05#8), (.wRow5 dat, 0x06#8), (.wRow6 dat, 0x07#8), (.wRow7 dat, 0x08#8)] : List (Instr × Byte)),
      exec x.1 s =
        .next { s.emitted (frameEvents (wireBuffer c.n s.seq.i x.2 dat)) with
          scratch := Scratch.empty
          seq := SeqPos.idle }

/-- W_DECODE_RAW, W_INTENSITY and W_POWER_ON at a position of the chain, lines owned, every line write passing: one frame
that carries `09 00`, `0A level` or `0C 01`, and no other change (41 R132 to R134). D6, D7; issued alone: log entry 17;
no premise on DISP: log entry 12. -/
def Obligations.ControlCommandsSendOneFrame : Prop :=
  ∀ (level : Byte) (s : State) (c : Cfg), s.cfg = some c → s.lines.allOwned = true → s.seq.i < c.n →
    s.pinsOk (2 + 48 * c.n) →
    ∀ x ∈ ([(.wDecodeRaw, 0x09#8, 0x00#8), (.wIntensity level, 0x0A#8, level), (.wPowerOn, 0x0C#8, 0x01#8)] :
        List (Instr × Byte × Byte)),
      exec x.1 s =
        .next { s.emitted (frameEvents (wireBuffer c.n s.seq.i x.2.1 x.2.2)) with
          scratch := Scratch.empty
          seq := SeqPos.idle }

/-- W_NOOP changes nothing: no event, no oracle asked (41 R130); only the operation's own registers and coordinates, which
have no value between operations anyway, are dropped (log entry 14). -/
def Obligations.NoopChangesNothing : Prop :=
  ∀ s : State, exec .wNoop s = .next { s with scratch := Scratch.empty, seq := SeqPos.idle }

/-- A wire command whose line write number `j` fails: Data, the writes before it stay, its line is Unknown, and the cut is
at its coordinates (40_serial_port R112, 10_state R27). D13; issued alone: log entry 17. That the coordinates are kept is the
model's choice (log entry 18), and so are `b` and `k` at CS_LOW and CS_HIGH (log entry 33); no premise on DISP: log entry 12. -/
def Obligations.WireCommandCut : Prop :=
  ∀ (i : Instr) (sel dat : Byte) (s : State) (c : Cfg) (j : Nat) (w : LineWrite), frameWord i = some (sel, dat) →
    s.cfg = some c → s.lines.allOwned = true → s.seq.i < c.n →
    (frameWrites (wireBuffer c.n s.seq.i sel dat))[j]? = some w → s.pinsOk j → s.pinAnswer j = false →
    exec i s =
      .next { (s.emitted ((frameEvents (wireBuffer c.n s.seq.i sel dat)).take j)).lost w.line with
        scratch := Scratch.empty
        seq := SeqPos.idle
        results := s.results ++ [.err .data]
        lastCut := { s.seq with b := w.b, k := w.k, s := w.sub } }

/-- A wire command that sends a frame stops by name where one of three preconditions of the frame does not hold: without
CFG, with a line not owned, at a position outside the chain. The fault is the model's choice (log entry 12), and so is that
R114's precondition on DISP is not tested by itself; the preconditions are 40_serial_port R113 to R115. -/
def Obligations.WireCommandPreconditions : Prop :=
  ∀ (i : Instr) (w : Byte × Byte) (s : State), frameWord i = some w →
    (s.cfg = none → exec i s = .fault .noChain) ∧
    (∀ c, s.cfg = some c → s.lines.allOwned = false → exec i s = .fault .linkNotOwned) ∧
    ∀ c, s.cfg = some c → s.lines.allOwned = true → c.n ≤ s.seq.i → exec i s = .fault .positionOutOfRange

/-! ### The sensor -/

/-- S_INIT on an uninitialised sensor, the write passing: the init command, then 300 ms, then Ready; nothing else
(43_sensor R205). -/
def Obligations.InitSucceeds : Prop :=
  ∀ s : State, s.sns = .uninitialized → s.busWriteAnswer Config.sensorAddr [0xE1#8, 0x08#8, 0x00#8] = true →
    exec .sInit s =
      .next { s with
        sns := .ready
        scratch := Scratch.empty
        seq := SeqPos.idle
        tape := .delay 300 :: .twWrite Config.sensorAddr [0xE1#8, 0x08#8, 0x00#8] :: s.tape
        results := s.results ++ [.ok]
        busWrites := s.busWrites.skip 1 }

/-- S_INIT whose write fails: SensorInit, SNS Undefined, nothing emitted, no delay (60_exceptions R284). The record of the
cut is the model's own (log entries 18 and 33). -/
def Obligations.InitFails : Prop :=
  ∀ s : State, s.sns = .uninitialized → s.busWriteAnswer Config.sensorAddr [0xE1#8, 0x08#8, 0x00#8] = false →
    exec .sInit s =
      .next { s with
        sns := .undefined
        scratch := Scratch.empty
        seq := SeqPos.idle
        results := s.results ++ [.err .sensorInit]
        lastCut := { SeqPos.idle with op := .sInit, phase := .cmd }
        busWrites := s.busWrites.skip 1 }

/-- S_INIT outside Uninitialized and S_MEASURE outside Ready are refused: no event, no oracle asked, no change but the
result (43_sensor R208). D18; log entry 4. -/
def Obligations.SensorOperationsRefused : Prop :=
  ∀ s : State,
    (s.sns ≠ .uninitialized →
      exec .sInit s = .next { s with results := s.results ++ [.refused .sensorNotUninitialized] }) ∧
    (s.sns ≠ .ready → exec .sMeasure s = .next { s with results := s.results ++ [.refused .sensorNotReady] })

/-- S_MEASURE on a ready sensor, bus healthy, reply calibrated: trigger, 100 ms, one read of six bytes, and the two scaled
values as the result; SNS stays Ready (43_sensor R206). -/
def Obligations.MeasureGivesReading : Prop :=
  ∀ (s : State) (r : Reply), s.sns = .ready →
    s.busWriteAnswer Config.sensorAddr [0xAC#8, 0x33#8, 0x00#8] = true →
    s.busReadAnswer Config.sensorAddr = some r → r.b0.getLsbD 3 = true →
    exec .sMeasure s =
      .next { s with
        scratch := Scratch.empty
        seq := SeqPos.idle
        tape :=
          .twRead Config.sensorAddr 6 [r.b0, r.b1, r.b2, r.b3, r.b4, r.b5] :: .delay 100 ::
            .twWrite Config.sensorAddr [0xAC#8, 0x33#8, 0x00#8] :: s.tape
        results := s.results ++ [.reading (scaleT (assembleTemperature r)) (scaleH (assembleHumidity r))]
        busWrites := s.busWrites.skip 1
        busReads := s.busReads.skip 1 }

/-- S_MEASURE whose reply has bit 3 of its first byte clear: Uncalibrated, no reading whatever the other bytes, the three
events in TRACE, SNS stays Ready (60_exceptions R286). The record of the cut is the model's own (log entries 18 and
33). -/
def Obligations.MeasureUncalibrated : Prop :=
  ∀ (s : State) (r : Reply), s.sns = .ready →
    s.busWriteAnswer Config.sensorAddr [0xAC#8, 0x33#8, 0x00#8] = true →
    s.busReadAnswer Config.sensorAddr = some r → r.b0.getLsbD 3 = false →
    exec .sMeasure s =
      .next { s with
        scratch := Scratch.empty
        seq := SeqPos.idle
        tape :=
          .twRead Config.sensorAddr 6 [r.b0, r.b1, r.b2, r.b3, r.b4, r.b5] :: .delay 100 ::
            .twWrite Config.sensorAddr [0xAC#8, 0x33#8, 0x00#8] :: s.tape
        results := s.results ++ [.err .uncalibrated]
        lastCut := { SeqPos.idle with op := .sMeasure, phase := .decodeReply }
        busWrites := s.busWrites.skip 1
        busReads := s.busReads.skip 1 }

/-- S_MEASURE whose trigger write fails emits nothing, and whose read fails leaves the first two events: SensorMeasure
both times, SNS stays Ready (60_exceptions R285). The record of the cut is the model's own (log entries 18 and
33). -/
def Obligations.MeasureBusFails : Prop :=
  ∀ s : State, s.sns = .ready →
    (s.busWriteAnswer Config.sensorAddr [0xAC#8, 0x33#8, 0x00#8] = false →
      exec .sMeasure s =
        .next { s with
          scratch := Scratch.empty
          seq := SeqPos.idle
          results := s.results ++ [.err .sensorMeasure]
          lastCut := { SeqPos.idle with op := .sMeasure, phase := .trigger }
          busWrites := s.busWrites.skip 1 }) ∧
    (s.busWriteAnswer Config.sensorAddr [0xAC#8, 0x33#8, 0x00#8] = true →
      s.busReadAnswer Config.sensorAddr = none →
      exec .sMeasure s =
        .next { s with
          scratch := Scratch.empty
          seq := SeqPos.idle
          tape := .delay 100 :: .twWrite Config.sensorAddr [0xAC#8, 0x33#8, 0x00#8] :: s.tape
          results := s.results ++ [.err .sensorMeasure]
          lastCut := { SeqPos.idle with op := .sMeasure, phase := .read }
          busWrites := s.busWrites.skip 1
          busReads := s.busReads.skip 1 })

/-- TW_CMD_INIT and TW_CMD_TRIGGER, the write passing: one write of the three bytes to the sensor's address, and no other
change (43_sensor R201, R203, R204). D15; issued alone: log entry 15. -/
def Obligations.SensorCommandsWriteThreeBytes : Prop :=
  ∀ s : State,
    (s.busWriteAnswer Config.sensorAddr [0xE1#8, 0x08#8, 0x00#8] = true →
      exec .twCmdInit s =
        .next { s with
          scratch := Scratch.empty
          seq := SeqPos.idle
          tape := .twWrite Config.sensorAddr [0xE1#8, 0x08#8, 0x00#8] :: s.tape
          busWrites := s.busWrites.skip 1 }) ∧
    (s.busWriteAnswer Config.sensorAddr [0xAC#8, 0x33#8, 0x00#8] = true →
      exec .twCmdTrigger s =
        .next { s with
          scratch := Scratch.empty
          seq := SeqPos.idle
          tape := .twWrite Config.sensorAddr [0xAC#8, 0x33#8, 0x00#8] :: s.tape
          busWrites := s.busWrites.skip 1 })

/-- TW_CMD_INIT and TW_CMD_TRIGGER, the write failing: no event, and the error their only sender gives it (43_sensor R201,
R205, R206). D15; issued alone: log entry 15. The record of the cut is the model's own (log entries 18 and 33). -/
def Obligations.SensorCommandsFail : Prop :=
  ∀ s : State,
    (s.busWriteAnswer Config.sensorAddr [0xE1#8, 0x08#8, 0x00#8] = false →
      exec .twCmdInit s =
        .next { s with
          sns := .undefined
          scratch := Scratch.empty
          seq := SeqPos.idle
          results := s.results ++ [.err .sensorInit]
          lastCut := { s.seq with phase := .cmd }
          busWrites := s.busWrites.skip 1 }) ∧
    (s.busWriteAnswer Config.sensorAddr [0xAC#8, 0x33#8, 0x00#8] = false →
      exec .twCmdTrigger s =
        .next { s with
          scratch := Scratch.empty
          seq := SeqPos.idle
          results := s.results ++ [.err .sensorMeasure]
          lastCut := { s.seq with phase := .trigger }
          busWrites := s.busWrites.skip 1 })

/-- A reply alone: with its calibration bit set R48_CALIBRATED gives the scaled reading, with it clear R48_UNCALIBRATED
ends in Uncalibrated; nothing else changes but the model's own record of the cut (log entries 18 and 33) (43_sensor R212,
30_encoding R96). Issued alone: log entry 16. -/
def Obligations.RepliesDecoded : Prop :=
  ∀ (s : State) (r : Reply),
    (r.b0.getLsbD 3 = true →
      exec (.r48Calibrated r) s =
        .next { s with
          scratch := Scratch.empty
          seq := SeqPos.idle
          results := s.results ++ [.reading (scaleT (assembleTemperature r)) (scaleH (assembleHumidity r))] }) ∧
    (r.b0.getLsbD 3 = false →
      exec (.r48Uncalibrated r) s =
        .next { s with
          scratch := Scratch.empty
          seq := SeqPos.idle
          results := s.results ++ [.err .uncalibrated]
          lastCut := { s.seq with phase := .decodeReply } })

/-- The stage STATUS decodes the three flags from the status byte of the reply buffer: BUSY is bit 7, MODE bits 6 and 5,
CAL bit 3, and nothing else changes but the phase of the sequencer (10_state R28, 30_encoding R92, 43_sensor R211). Of the
status byte of a reply run alone only the calibration bit matters: BUSY, MODE and the unnamed bits change nothing. That a
reply is run alone is the model's choice (log entry 16). -/
def Obligations.OnlyCalibrationBitMatters : Prop :=
  (∀ s : State,
    decodeStatus s =
      { s with
        seq := { s.seq with phase := .decodeReply }
        scratch :=
          { s.scratch with
            busy := s.scratch.rx.b0.getLsbD 7
            mode := s.scratch.rx.b0.extractLsb' 5 2
            cal := s.scratch.rx.b0.getLsbD 3 } }) ∧
  ∀ (s : State) (a b : Byte) (b1 b2 b3 b4 b5 : Byte), a.getLsbD 3 = b.getLsbD 3 →
    exec (.r48Calibrated ⟨a, b1, b2, b3, b4, b5⟩) s = exec (.r48Calibrated ⟨b, b1, b2, b3, b4, b5⟩) s ∧
    exec (.r48Uncalibrated ⟨a, b1, b2, b3, b4, b5⟩) s = exec (.r48Uncalibrated ⟨b, b1, b2, b3, b4, b5⟩) s

/-- The humidity count is the top 20 bits of bytes 1 to 3, and that is the sum of 45 R270 (43_sensor R213). -/
def Obligations.HumidityCount : Prop :=
  ∀ r : Reply,
    assembleHumidity r = (r.b1 ++ r.b2 ++ r.b3 : BitVec 24).extractLsb' 4 20 ∧
    assembleHumidity r = (r.b1.setWidth 20 <<< 12) ||| (r.b2.setWidth 20 <<< 4) ||| (r.b3.setWidth 20 >>> 4) ∧
    (assembleHumidity r).toNat = r.b1.toNat * 2 ^ 12 + r.b2.toNat * 2 ^ 4 + r.b3.toNat / 16

/-- The temperature count is the bottom 20 bits of bytes 3 to 5, and that is the sum of 45 R270 (43_sensor R214). -/
def Obligations.TemperatureCount : Prop :=
  ∀ r : Reply,
    assembleTemperature r = (r.b3 ++ r.b4 ++ r.b5 : BitVec 24).extractLsb' 0 20 ∧
    assembleTemperature r =
      ((r.b3 &&& 0x0F#8).setWidth 20 <<< 16) ||| (r.b4.setWidth 20 <<< 8) ||| r.b5.setWidth 20 ∧
    (assembleTemperature r).toNat = r.b3.toNat % 16 * 2 ^ 16 + r.b4.toNat * 2 ^ 8 + r.b5.toNat

/-- The humidity result: exact up to 671088, and from there the half-to-even rounding of the product; never a NaN, an
infinity, a subnormal or a negative zero (43_sensor R215). The evaluation order is the spec's decision D16. -/
def Obligations.HumidityScale : Prop :=
  ∀ raw : Raw,
    f32Ordinary (scaleH raw) ∧
    f32Value (scaleH raw) =
      if raw.toNat ≤ 671088 then (25 * raw.toNat : Rat) / 2 ^ 18 else (halfToEven (25 * raw.toNat) : Rat) / 2 ^ 17

/-- The temperature result: exact up to 671088, and from there the half-to-even rounding of the product less 50; never a
NaN, an infinity, a subnormal or a negative zero (43_sensor R216, R215). The evaluation order is the spec's decision
D16. -/
def Obligations.TemperatureScale : Prop :=
  ∀ raw : Raw,
    f32Ordinary (scaleT raw) ∧
    f32Value (scaleT raw) =
      if raw.toNat ≤ 671088 then (25 * raw.toNat : Rat) / 2 ^ 17 - 50
      else (halfToEven (25 * raw.toNat) : Rat) / 2 ^ 16 - 50

/-! ### The machine as a whole -/

/-- What reset leaves, for every piece of state the spec gives a value (10_state R36): no display, no value of CFG, no line
owned, an uninitialised sensor, an empty TRACE, no module register specified. TRACE is the spec's decision D1, the modules
are D19. -/
def Obligations.ResetGivesTheSpecValues : Prop :=
  State.reset.disp = .absent ∧ State.reset.cfg = none ∧ State.reset.lines.noneOwned = true ∧
  State.reset.sns = .uninitialized ∧ State.reset.trace = [] ∧
  ∀ m ∈ State.reset.modules.mods, m = MatrixModule.unspecified

/-- The invariant holds at reset (10_state R36, R34). -/
def Obligations.ResetMeetsInvariant : Prop := State.reset.Inv

/-- Every step keeps the invariant of 10_state R34, from every state that meets it and whatever word is issued. -/
def Obligations.EveryStepKeepsInvariant : Prop :=
  ∀ s t : State, s.Inv → step s = .next t → t.Inv

/-- From a state that meets the invariant with an empty bench, a program of host words runs on for any number of steps: no
step faults and none ends in the machine's refusal, whatever the oracles answer (60_exceptions R292). An operation that the
spec refuses (60_exceptions R288) counts as run on, because its refusal is a next state: the model's choice (log entry 4).
Which of these runs have a meaning is `State.Meaningful`, and this statement does not say. -/
def Obligations.HostProgramNeverStops : Prop :=
  ∀ (k : Nat) (s : State), s.Inv → s.HostProgram →
    ∃ t : State, Sys2Proof.core.run k s = .next t ∧ t.Inv ∧ t.HostProgram

/-- TRACE only grows, and so do the results: what a step has, it keeps in front (10_state R31, 70_reset R321). -/
def Obligations.TraceOnlyGrows : Prop :=
  ∀ s t : State, step s = .next t → s.trace <+: t.trace ∧ s.results <+: t.results

/-- Nothing returns to the reset state: a live display stays live with its CFG, an initialised sensor never becomes
uninitialised, and with an empty bench Ready and Undefined stay (70_reset R321, 10_state R21, R22, R26). -/
def Obligations.NothingGoesBack : Prop :=
  ∀ s t : State, step s = .next t →
    (s.disp = .live → t.disp = .live ∧ t.cfg = s.cfg) ∧
    (s.sns ≠ .uninitialized → t.sns ≠ .uninitialized) ∧
    (s.HostProgram → s.sns ≠ .uninitialized → t.sns = s.sns)

/-- The two sub-blocks do not reach each other's spaces: an instruction for the modules emits line events only and asks
no bus; one for the sensor emits none and touches no line, pin or module (20_memory R55). -/
def Obligations.SubBlocksStaySeparate : Prop :=
  ∀ (i : Instr) (s t : State), exec i s = .next t →
    ∃ es : List Event, t.trace = s.trace ++ es ∧ (∀ e ∈ es, e.isLine = touchesLink i) ∧
      if touchesLink i then t.sns = s.sns ∧ t.busWrites = s.busWrites ∧ t.busReads = s.busReads
      else
        t.cfg = s.cfg ∧ t.disp = s.disp ∧ t.lines = s.lines ∧ t.pins = s.pins ∧ t.canvases = s.canvases ∧
          t.modules = s.modules

/-- No instruction reads the observer: whatever the modules hold, the block does the same (41 R140). D19. -/
def Obligations.ObserverNeverRead : Prop :=
  ∀ (i : Instr) (s : State) (o : Observer),
    mapNext State.withoutModules (exec i { s with modules := o }) = mapNext State.withoutModules (exec i s)

/-- No instruction reads a frame buffer, transfer buffer, reply or count left by an earlier one (10_state R24, R25, R28,
R29). -/
def Obligations.OldRegistersNeverRead : Prop :=
  ∀ (i : Instr) (s : State) (r : Scratch),
    mapNext State.withoutScratch (exec i { s with scratch := r }) = mapNext State.withoutScratch (exec i s)

/-! ### The image (through the reference receiver) -/

/-- After a failure that left CLK Low, with chip-select Low or not, bits of the cut frame in the chain and earlier clock
pulses in doubt, the next complete row frame is received correctly: the module at its position takes the row and the others
keep theirs (70_reset R335, 40_serial_port R114, 41 R142, R143). A statement about the reference receiver of D19, G1; the
doubt is log entry 22. -/
def Obligations.CompleteFrameReceived : Prop :=
  ∀ (n i : Nat) (r : Fin 8) (d : Byte) (o : Observer), i < n → o.canFollow n →
    (o.watch n (frameEvents (wireBuffer n i (Wire.row r d).sel d))).mods =
        o.mods.modify i (fun m => { m with rows := m.rows.set r.val (some d) }) ∧
      (o.watch n (frameEvents (wireBuffer n i (Wire.row r d).sel d))).canFollow n ∧
      (o.watch n (frameEvents (wireBuffer n i (Wire.row r d).sel d))).doubt = none

/-- After a DRAW that returned Ok, on powered modules in raw mode that the observer follows, pixel `(x, y)` is lit exactly
when the pixel source is not zero there (41 R145, 42 R169). A statement about the reference receiver of D19, G1; that the
chain has CFG.N modules is log entry 23. -/
def Obligations.ImageAfterDraw : Prop :=
  ∀ (s : State) (c : Cfg), s.disp = .live → s.cfg = some c → s.lines.allOwned = true → 1 ≤ c.n →
    s.pinsOk (8 * c.n * (2 + 48 * c.n)) → s.modules.canFollow c.n → s.modules.imageDefined c.n = true →
    ∃ t, exec .draw s = .next t ∧
      ∀ x y, x < 8 * c.n → y < 8 → t.modules.lit c.n x y = some (decide (s.pixels x y ≠ 0))

/-- After a successful NEW every module the observer follows is on, in raw mode, blank, at the low four bits of the level
(41 R146). A statement about the reference receiver of D19, G1; that the chain has as many modules as the count is log
entry 23. -/
def Obligations.BlankAfterNew : Prop :=
  ∀ (n : Nat) (level : Byte) (s : State), s.disp = .absent → 1 ≤ n → n ≤ 16 → s.pinsOk (4 + 11 * n * (2 + 48 * n)) →
    s.modules.stuck = false → n ≤ s.modules.mods.length →
    (∀ m ∈ s.modules.mods, m.rows.length = 8) →
    ∃ t, exec (.new n level) s = .next t ∧
      ∀ i, i < n →
        t.modules.mods[i]? =
          some ⟨List.replicate 8 (some 0x00#8), some 0x00#8, some (level.extractLsb' 0 4), some true⟩

/-- After a successful CLEAR every module of the chain is blank and nothing else of it changed, so that a second CLEAR
changes no module (41 R146, 42 R163). A statement about the reference receiver of D19, G1; that the chain has CFG.N modules
is log entry 23. -/
def Obligations.ClearBlanksTheModules : Prop :=
  ∀ (s : State) (c : Cfg), s.disp = .live → s.cfg = some c → s.lines.allOwned = true → 1 ≤ c.n →
    s.pinsOk (8 * c.n * (2 + 48 * c.n)) → s.modules.canFollow c.n →
    ∃ t, exec .clear s = .next t ∧
      t.modules.mods = (s.modules.mods.take c.n).map MatrixModule.blanked ++ s.modules.mods.drop c.n
end

