-- ==== Sys2Proof/Laws/State.lean ====
section
/-! SUPPORT. One lemma for each field of State and each named update of it, all true by unfolding, so that no later proof
unfolds a record update; and the same for what is read off the state (`trace`, `moduleCount`, `pinAnswer`). -/

namespace Sys2Proof.Machine

variable (s : State)

/-! ### `State.askPin` -/

@[simp] theorem State.askPin_inbox : s.askPin.inbox = s.inbox := rfl
@[simp] theorem State.askPin_bench : s.askPin.bench = s.bench := rfl
@[simp] theorem State.askPin_cfg : s.askPin.cfg = s.cfg := rfl
@[simp] theorem State.askPin_disp : s.askPin.disp = s.disp := rfl
@[simp] theorem State.askPin_lines : s.askPin.lines = s.lines := rfl
@[simp] theorem State.askPin_scratch : s.askPin.scratch = s.scratch := rfl
@[simp] theorem State.askPin_sns : s.askPin.sns = s.sns := rfl
@[simp] theorem State.askPin_seq : s.askPin.seq = s.seq := rfl
@[simp] theorem State.askPin_tape : s.askPin.tape = s.tape := rfl
@[simp] theorem State.askPin_results : s.askPin.results = s.results := rfl
@[simp] theorem State.askPin_lastCut : s.askPin.lastCut = s.lastCut := rfl
@[simp] theorem State.askPin_pins : s.askPin.pins = s.pins.skip 1 := rfl
@[simp] theorem State.askPin_busWrites : s.askPin.busWrites = s.busWrites := rfl
@[simp] theorem State.askPin_busReads : s.askPin.busReads = s.busReads := rfl
@[simp] theorem State.askPin_canvases : s.askPin.canvases = s.canvases := rfl
@[simp] theorem State.askPin_modules : s.askPin.modules = s.modules := rfl
@[simp] theorem State.askPin_moduleCount : s.askPin.moduleCount = s.moduleCount := rfl
@[simp] theorem State.askPin_trace : s.askPin.trace = s.trace := rfl
@[simp] theorem State.askPin_pinAnswer (j : Nat) : s.askPin.pinAnswer j = s.pinAnswer (j + 1) := by
  simp only [State.pinAnswer, State.askPin, Feed.peek, Feed.skip, List.getElem?_drop, Nat.add_comm 1 j, Nat.add_assoc]

/-! ### `State.askBusWrite` -/

@[simp] theorem State.askBusWrite_inbox : s.askBusWrite.inbox = s.inbox := rfl
@[simp] theorem State.askBusWrite_bench : s.askBusWrite.bench = s.bench := rfl
@[simp] theorem State.askBusWrite_cfg : s.askBusWrite.cfg = s.cfg := rfl
@[simp] theorem State.askBusWrite_disp : s.askBusWrite.disp = s.disp := rfl
@[simp] theorem State.askBusWrite_lines : s.askBusWrite.lines = s.lines := rfl
@[simp] theorem State.askBusWrite_scratch : s.askBusWrite.scratch = s.scratch := rfl
@[simp] theorem State.askBusWrite_sns : s.askBusWrite.sns = s.sns := rfl
@[simp] theorem State.askBusWrite_seq : s.askBusWrite.seq = s.seq := rfl
@[simp] theorem State.askBusWrite_tape : s.askBusWrite.tape = s.tape := rfl
@[simp] theorem State.askBusWrite_results : s.askBusWrite.results = s.results := rfl
@[simp] theorem State.askBusWrite_lastCut : s.askBusWrite.lastCut = s.lastCut := rfl
@[simp] theorem State.askBusWrite_pins : s.askBusWrite.pins = s.pins := rfl
@[simp] theorem State.askBusWrite_busWrites : s.askBusWrite.busWrites = s.busWrites.skip 1 := rfl
@[simp] theorem State.askBusWrite_busReads : s.askBusWrite.busReads = s.busReads := rfl
@[simp] theorem State.askBusWrite_canvases : s.askBusWrite.canvases = s.canvases := rfl
@[simp] theorem State.askBusWrite_modules : s.askBusWrite.modules = s.modules := rfl
@[simp] theorem State.askBusWrite_moduleCount : s.askBusWrite.moduleCount = s.moduleCount := rfl
@[simp] theorem State.askBusWrite_trace : s.askBusWrite.trace = s.trace := rfl
@[simp] theorem State.askBusWrite_pinAnswer (j : Nat) : s.askBusWrite.pinAnswer j = s.pinAnswer j := rfl

/-! ### `State.askBusRead` -/

@[simp] theorem State.askBusRead_inbox : s.askBusRead.inbox = s.inbox := rfl
@[simp] theorem State.askBusRead_bench : s.askBusRead.bench = s.bench := rfl
@[simp] theorem State.askBusRead_cfg : s.askBusRead.cfg = s.cfg := rfl
@[simp] theorem State.askBusRead_disp : s.askBusRead.disp = s.disp := rfl
@[simp] theorem State.askBusRead_lines : s.askBusRead.lines = s.lines := rfl
@[simp] theorem State.askBusRead_scratch : s.askBusRead.scratch = s.scratch := rfl
@[simp] theorem State.askBusRead_sns : s.askBusRead.sns = s.sns := rfl
@[simp] theorem State.askBusRead_seq : s.askBusRead.seq = s.seq := rfl
@[simp] theorem State.askBusRead_tape : s.askBusRead.tape = s.tape := rfl
@[simp] theorem State.askBusRead_results : s.askBusRead.results = s.results := rfl
@[simp] theorem State.askBusRead_lastCut : s.askBusRead.lastCut = s.lastCut := rfl
@[simp] theorem State.askBusRead_pins : s.askBusRead.pins = s.pins := rfl
@[simp] theorem State.askBusRead_busWrites : s.askBusRead.busWrites = s.busWrites := rfl
@[simp] theorem State.askBusRead_busReads : s.askBusRead.busReads = s.busReads.skip 1 := rfl
@[simp] theorem State.askBusRead_canvases : s.askBusRead.canvases = s.canvases := rfl
@[simp] theorem State.askBusRead_modules : s.askBusRead.modules = s.modules := rfl
@[simp] theorem State.askBusRead_moduleCount : s.askBusRead.moduleCount = s.moduleCount := rfl
@[simp] theorem State.askBusRead_trace : s.askBusRead.trace = s.trace := rfl
@[simp] theorem State.askBusRead_pinAnswer (j : Nat) : s.askBusRead.pinAnswer j = s.pinAnswer j := rfl

/-! ### `State.takePixels` -/

@[simp] theorem State.takePixels_inbox : s.takePixels.inbox = s.inbox := rfl
@[simp] theorem State.takePixels_bench : s.takePixels.bench = s.bench := rfl
@[simp] theorem State.takePixels_cfg : s.takePixels.cfg = s.cfg := rfl
@[simp] theorem State.takePixels_disp : s.takePixels.disp = s.disp := rfl
@[simp] theorem State.takePixels_lines : s.takePixels.lines = s.lines := rfl
@[simp] theorem State.takePixels_scratch : s.takePixels.scratch = s.scratch := rfl
@[simp] theorem State.takePixels_sns : s.takePixels.sns = s.sns := rfl
@[simp] theorem State.takePixels_seq : s.takePixels.seq = s.seq := rfl
@[simp] theorem State.takePixels_tape : s.takePixels.tape = s.tape := rfl
@[simp] theorem State.takePixels_results : s.takePixels.results = s.results := rfl
@[simp] theorem State.takePixels_lastCut : s.takePixels.lastCut = s.lastCut := rfl
@[simp] theorem State.takePixels_pins : s.takePixels.pins = s.pins := rfl
@[simp] theorem State.takePixels_busWrites : s.takePixels.busWrites = s.busWrites := rfl
@[simp] theorem State.takePixels_busReads : s.takePixels.busReads = s.busReads := rfl
@[simp] theorem State.takePixels_canvases : s.takePixels.canvases = s.canvases.skip 1 := rfl
@[simp] theorem State.takePixels_modules : s.takePixels.modules = s.modules := rfl
@[simp] theorem State.takePixels_moduleCount : s.takePixels.moduleCount = s.moduleCount := rfl
@[simp] theorem State.takePixels_trace : s.takePixels.trace = s.trace := rfl
@[simp] theorem State.takePixels_pinAnswer (j : Nat) : s.takePixels.pinAnswer j = s.pinAnswer j := rfl

/-! ### `State.emit` -/

@[simp] theorem State.emit_inbox (e : Event) : (s.emit e).inbox = s.inbox := rfl
@[simp] theorem State.emit_bench (e : Event) : (s.emit e).bench = s.bench := rfl
@[simp] theorem State.emit_cfg (e : Event) : (s.emit e).cfg = s.cfg := rfl
@[simp] theorem State.emit_disp (e : Event) : (s.emit e).disp = s.disp := rfl
@[simp] theorem State.emit_lines (e : Event) : (s.emit e).lines = s.lines := rfl
@[simp] theorem State.emit_scratch (e : Event) : (s.emit e).scratch = s.scratch := rfl
@[simp] theorem State.emit_sns (e : Event) : (s.emit e).sns = s.sns := rfl
@[simp] theorem State.emit_seq (e : Event) : (s.emit e).seq = s.seq := rfl
@[simp] theorem State.emit_tape (e : Event) : (s.emit e).tape = e :: s.tape := rfl
@[simp] theorem State.emit_results (e : Event) : (s.emit e).results = s.results := rfl
@[simp] theorem State.emit_lastCut (e : Event) : (s.emit e).lastCut = s.lastCut := rfl
@[simp] theorem State.emit_pins (e : Event) : (s.emit e).pins = s.pins := rfl
@[simp] theorem State.emit_busWrites (e : Event) : (s.emit e).busWrites = s.busWrites := rfl
@[simp] theorem State.emit_busReads (e : Event) : (s.emit e).busReads = s.busReads := rfl
@[simp] theorem State.emit_canvases (e : Event) : (s.emit e).canvases = s.canvases := rfl
@[simp] theorem State.emit_modules (e : Event) : (s.emit e).modules = s.modules.onEvent s.moduleCount e := rfl
@[simp] theorem State.emit_moduleCount (e : Event) : (s.emit e).moduleCount = s.moduleCount := rfl
@[simp] theorem State.emit_trace (e : Event) : (s.emit e).trace = s.trace ++ [e] := List.reverse_cons
@[simp] theorem State.emit_pinAnswer (e : Event) (j : Nat) : (s.emit e).pinAnswer j = s.pinAnswer j := rfl

/-! ### `State.drive` -/

@[simp] theorem State.drive_inbox (l : Line) (v : LineLevel) : (s.drive l v).inbox = s.inbox := rfl
@[simp] theorem State.drive_bench (l : Line) (v : LineLevel) : (s.drive l v).bench = s.bench := rfl
@[simp] theorem State.drive_cfg (l : Line) (v : LineLevel) : (s.drive l v).cfg = s.cfg := rfl
@[simp] theorem State.drive_disp (l : Line) (v : LineLevel) : (s.drive l v).disp = s.disp := rfl
@[simp] theorem State.drive_lines (l : Line) (v : LineLevel) : (s.drive l v).lines = s.lines.withLevel l v := rfl
@[simp] theorem State.drive_scratch (l : Line) (v : LineLevel) : (s.drive l v).scratch = s.scratch := rfl
@[simp] theorem State.drive_sns (l : Line) (v : LineLevel) : (s.drive l v).sns = s.sns := rfl
@[simp] theorem State.drive_seq (l : Line) (v : LineLevel) : (s.drive l v).seq = s.seq := rfl
@[simp] theorem State.drive_tape (l : Line) (v : LineLevel) : (s.drive l v).tape = s.tape := rfl
@[simp] theorem State.drive_results (l : Line) (v : LineLevel) : (s.drive l v).results = s.results := rfl
@[simp] theorem State.drive_lastCut (l : Line) (v : LineLevel) : (s.drive l v).lastCut = s.lastCut := rfl
@[simp] theorem State.drive_pins (l : Line) (v : LineLevel) : (s.drive l v).pins = s.pins := rfl
@[simp] theorem State.drive_busWrites (l : Line) (v : LineLevel) : (s.drive l v).busWrites = s.busWrites := rfl
@[simp] theorem State.drive_busReads (l : Line) (v : LineLevel) : (s.drive l v).busReads = s.busReads := rfl
@[simp] theorem State.drive_canvases (l : Line) (v : LineLevel) : (s.drive l v).canvases = s.canvases := rfl
@[simp] theorem State.drive_modules (l : Line) (v : LineLevel) : (s.drive l v).modules = s.modules := rfl
@[simp] theorem State.drive_moduleCount (l : Line) (v : LineLevel) : (s.drive l v).moduleCount = s.moduleCount := rfl
@[simp] theorem State.drive_trace (l : Line) (v : LineLevel) : (s.drive l v).trace = s.trace := rfl
@[simp] theorem State.drive_pinAnswer (l : Line) (v : LineLevel) (j : Nat) : (s.drive l v).pinAnswer j = s.pinAnswer j := rfl

/-! ### `State.loseLine` -/

@[simp] theorem State.loseLine_inbox (l : Line) : (s.loseLine l).inbox = s.inbox := rfl
@[simp] theorem State.loseLine_bench (l : Line) : (s.loseLine l).bench = s.bench := rfl
@[simp] theorem State.loseLine_cfg (l : Line) : (s.loseLine l).cfg = s.cfg := rfl
@[simp] theorem State.loseLine_disp (l : Line) : (s.loseLine l).disp = s.disp := rfl
@[simp] theorem State.loseLine_lines (l : Line) : (s.loseLine l).lines = s.lines.withLevel l .unknown := rfl
@[simp] theorem State.loseLine_scratch (l : Line) : (s.loseLine l).scratch = s.scratch := rfl
@[simp] theorem State.loseLine_sns (l : Line) : (s.loseLine l).sns = s.sns := rfl
@[simp] theorem State.loseLine_seq (l : Line) : (s.loseLine l).seq = s.seq := rfl
@[simp] theorem State.loseLine_tape (l : Line) : (s.loseLine l).tape = s.tape := rfl
@[simp] theorem State.loseLine_results (l : Line) : (s.loseLine l).results = s.results := rfl
@[simp] theorem State.loseLine_lastCut (l : Line) : (s.loseLine l).lastCut = s.lastCut := rfl
@[simp] theorem State.loseLine_pins (l : Line) : (s.loseLine l).pins = s.pins := rfl
@[simp] theorem State.loseLine_busWrites (l : Line) : (s.loseLine l).busWrites = s.busWrites := rfl
@[simp] theorem State.loseLine_busReads (l : Line) : (s.loseLine l).busReads = s.busReads := rfl
@[simp] theorem State.loseLine_canvases (l : Line) : (s.loseLine l).canvases = s.canvases := rfl
@[simp] theorem State.loseLine_modules (l : Line) : (s.loseLine l).modules = s.modules.onLost l := rfl
@[simp] theorem State.loseLine_moduleCount (l : Line) : (s.loseLine l).moduleCount = s.moduleCount := rfl
@[simp] theorem State.loseLine_trace (l : Line) : (s.loseLine l).trace = s.trace := rfl
@[simp] theorem State.loseLine_pinAnswer (l : Line) (j : Nat) : (s.loseLine l).pinAnswer j = s.pinAnswer j := rfl

/-! ### `State.release` -/

@[simp] theorem State.release_inbox : s.release.inbox = s.inbox := rfl
@[simp] theorem State.release_bench : s.release.bench = s.bench := rfl
@[simp] theorem State.release_cfg : s.release.cfg = s.cfg := rfl
@[simp] theorem State.release_disp : s.release.disp = s.disp := rfl
@[simp] theorem State.release_lines : s.release.lines = s.lines.released := rfl
@[simp] theorem State.release_scratch : s.release.scratch = s.scratch := rfl
@[simp] theorem State.release_sns : s.release.sns = s.sns := rfl
@[simp] theorem State.release_seq : s.release.seq = s.seq := rfl
@[simp] theorem State.release_tape : s.release.tape = s.tape := rfl
@[simp] theorem State.release_results : s.release.results = s.results := rfl
@[simp] theorem State.release_lastCut : s.release.lastCut = s.lastCut := rfl
@[simp] theorem State.release_pins : s.release.pins = s.pins := rfl
@[simp] theorem State.release_busWrites : s.release.busWrites = s.busWrites := rfl
@[simp] theorem State.release_busReads : s.release.busReads = s.busReads := rfl
@[simp] theorem State.release_canvases : s.release.canvases = s.canvases := rfl
@[simp] theorem State.release_modules : s.release.modules = s.modules.onRelease := rfl
@[simp] theorem State.release_moduleCount : s.release.moduleCount = s.moduleCount := rfl
@[simp] theorem State.release_trace : s.release.trace = s.trace := rfl
@[simp] theorem State.release_pinAnswer (j : Nat) : s.release.pinAnswer j = s.pinAnswer j := rfl

/-! ### `State.begin` -/

@[simp] theorem State.begin_inbox (op : SeqOp) : (s.begin op).inbox = s.inbox := rfl
@[simp] theorem State.begin_bench (op : SeqOp) : (s.begin op).bench = s.bench := rfl
@[simp] theorem State.begin_cfg (op : SeqOp) : (s.begin op).cfg = s.cfg := rfl
@[simp] theorem State.begin_disp (op : SeqOp) : (s.begin op).disp = s.disp := rfl
@[simp] theorem State.begin_lines (op : SeqOp) : (s.begin op).lines = s.lines := rfl
@[simp] theorem State.begin_scratch (op : SeqOp) : (s.begin op).scratch = s.scratch := rfl
@[simp] theorem State.begin_sns (op : SeqOp) : (s.begin op).sns = s.sns := rfl
@[simp] theorem State.begin_seq (op : SeqOp) : (s.begin op).seq = { SeqPos.idle with op := op } := rfl
@[simp] theorem State.begin_tape (op : SeqOp) : (s.begin op).tape = s.tape := rfl
@[simp] theorem State.begin_results (op : SeqOp) : (s.begin op).results = s.results := rfl
@[simp] theorem State.begin_lastCut (op : SeqOp) : (s.begin op).lastCut = s.lastCut := rfl
@[simp] theorem State.begin_pins (op : SeqOp) : (s.begin op).pins = s.pins := rfl
@[simp] theorem State.begin_busWrites (op : SeqOp) : (s.begin op).busWrites = s.busWrites := rfl
@[simp] theorem State.begin_busReads (op : SeqOp) : (s.begin op).busReads = s.busReads := rfl
@[simp] theorem State.begin_canvases (op : SeqOp) : (s.begin op).canvases = s.canvases := rfl
@[simp] theorem State.begin_modules (op : SeqOp) : (s.begin op).modules = s.modules := rfl
@[simp] theorem State.begin_moduleCount (op : SeqOp) : (s.begin op).moduleCount = s.moduleCount := rfl
@[simp] theorem State.begin_trace (op : SeqOp) : (s.begin op).trace = s.trace := rfl
@[simp] theorem State.begin_pinAnswer (op : SeqOp) (j : Nat) : (s.begin op).pinAnswer j = s.pinAnswer j := rfl

/-! ### `State.inPhase` -/

@[simp] theorem State.inPhase_inbox (p : Phase) : (s.inPhase p).inbox = s.inbox := rfl
@[simp] theorem State.inPhase_bench (p : Phase) : (s.inPhase p).bench = s.bench := rfl
@[simp] theorem State.inPhase_cfg (p : Phase) : (s.inPhase p).cfg = s.cfg := rfl
@[simp] theorem State.inPhase_disp (p : Phase) : (s.inPhase p).disp = s.disp := rfl
@[simp] theorem State.inPhase_lines (p : Phase) : (s.inPhase p).lines = s.lines := rfl
@[simp] theorem State.inPhase_scratch (p : Phase) : (s.inPhase p).scratch = s.scratch := rfl
@[simp] theorem State.inPhase_sns (p : Phase) : (s.inPhase p).sns = s.sns := rfl
@[simp] theorem State.inPhase_seq (p : Phase) : (s.inPhase p).seq = { s.seq with phase := p } := rfl
@[simp] theorem State.inPhase_tape (p : Phase) : (s.inPhase p).tape = s.tape := rfl
@[simp] theorem State.inPhase_results (p : Phase) : (s.inPhase p).results = s.results := rfl
@[simp] theorem State.inPhase_lastCut (p : Phase) : (s.inPhase p).lastCut = s.lastCut := rfl
@[simp] theorem State.inPhase_pins (p : Phase) : (s.inPhase p).pins = s.pins := rfl
@[simp] theorem State.inPhase_busWrites (p : Phase) : (s.inPhase p).busWrites = s.busWrites := rfl
@[simp] theorem State.inPhase_busReads (p : Phase) : (s.inPhase p).busReads = s.busReads := rfl
@[simp] theorem State.inPhase_canvases (p : Phase) : (s.inPhase p).canvases = s.canvases := rfl
@[simp] theorem State.inPhase_modules (p : Phase) : (s.inPhase p).modules = s.modules := rfl
@[simp] theorem State.inPhase_moduleCount (p : Phase) : (s.inPhase p).moduleCount = s.moduleCount := rfl
@[simp] theorem State.inPhase_trace (p : Phase) : (s.inPhase p).trace = s.trace := rfl
@[simp] theorem State.inPhase_pinAnswer (p : Phase) (j : Nat) : (s.inPhase p).pinAnswer j = s.pinAnswer j := rfl

/-! ### `State.atModule` -/

@[simp] theorem State.atModule_inbox (p : Phase) (i r : Nat) : (s.atModule p i r).inbox = s.inbox := rfl
@[simp] theorem State.atModule_bench (p : Phase) (i r : Nat) : (s.atModule p i r).bench = s.bench := rfl
@[simp] theorem State.atModule_cfg (p : Phase) (i r : Nat) : (s.atModule p i r).cfg = s.cfg := rfl
@[simp] theorem State.atModule_disp (p : Phase) (i r : Nat) : (s.atModule p i r).disp = s.disp := rfl
@[simp] theorem State.atModule_lines (p : Phase) (i r : Nat) : (s.atModule p i r).lines = s.lines := rfl
@[simp] theorem State.atModule_scratch (p : Phase) (i r : Nat) : (s.atModule p i r).scratch = s.scratch := rfl
@[simp] theorem State.atModule_sns (p : Phase) (i r : Nat) : (s.atModule p i r).sns = s.sns := rfl
@[simp] theorem State.atModule_seq (p : Phase) (i r : Nat) : (s.atModule p i r).seq = { s.seq with phase := p, i := i, r := r } := rfl
@[simp] theorem State.atModule_tape (p : Phase) (i r : Nat) : (s.atModule p i r).tape = s.tape := rfl
@[simp] theorem State.atModule_results (p : Phase) (i r : Nat) : (s.atModule p i r).results = s.results := rfl
@[simp] theorem State.atModule_lastCut (p : Phase) (i r : Nat) : (s.atModule p i r).lastCut = s.lastCut := rfl
@[simp] theorem State.atModule_pins (p : Phase) (i r : Nat) : (s.atModule p i r).pins = s.pins := rfl
@[simp] theorem State.atModule_busWrites (p : Phase) (i r : Nat) : (s.atModule p i r).busWrites = s.busWrites := rfl
@[simp] theorem State.atModule_busReads (p : Phase) (i r : Nat) : (s.atModule p i r).busReads = s.busReads := rfl
@[simp] theorem State.atModule_canvases (p : Phase) (i r : Nat) : (s.atModule p i r).canvases = s.canvases := rfl
@[simp] theorem State.atModule_modules (p : Phase) (i r : Nat) : (s.atModule p i r).modules = s.modules := rfl
@[simp] theorem State.atModule_moduleCount (p : Phase) (i r : Nat) : (s.atModule p i r).moduleCount = s.moduleCount := rfl
@[simp] theorem State.atModule_trace (p : Phase) (i r : Nat) : (s.atModule p i r).trace = s.trace := rfl
@[simp] theorem State.atModule_pinAnswer (p : Phase) (i r : Nat) (j : Nat) : (s.atModule p i r).pinAnswer j = s.pinAnswer j := rfl

/-! ### `State.atWrite` -/

@[simp] theorem State.atWrite_inbox (b k : Nat) (sub : SubStep) : (s.atWrite b k sub).inbox = s.inbox := rfl
@[simp] theorem State.atWrite_bench (b k : Nat) (sub : SubStep) : (s.atWrite b k sub).bench = s.bench := rfl
@[simp] theorem State.atWrite_cfg (b k : Nat) (sub : SubStep) : (s.atWrite b k sub).cfg = s.cfg := rfl
@[simp] theorem State.atWrite_disp (b k : Nat) (sub : SubStep) : (s.atWrite b k sub).disp = s.disp := rfl
@[simp] theorem State.atWrite_lines (b k : Nat) (sub : SubStep) : (s.atWrite b k sub).lines = s.lines := rfl
@[simp] theorem State.atWrite_scratch (b k : Nat) (sub : SubStep) : (s.atWrite b k sub).scratch = s.scratch := rfl
@[simp] theorem State.atWrite_sns (b k : Nat) (sub : SubStep) : (s.atWrite b k sub).sns = s.sns := rfl
@[simp] theorem State.atWrite_seq (b k : Nat) (sub : SubStep) : (s.atWrite b k sub).seq = { s.seq with b := b, k := k, s := sub } := rfl
@[simp] theorem State.atWrite_tape (b k : Nat) (sub : SubStep) : (s.atWrite b k sub).tape = s.tape := rfl
@[simp] theorem State.atWrite_results (b k : Nat) (sub : SubStep) : (s.atWrite b k sub).results = s.results := rfl
@[simp] theorem State.atWrite_lastCut (b k : Nat) (sub : SubStep) : (s.atWrite b k sub).lastCut = s.lastCut := rfl
@[simp] theorem State.atWrite_pins (b k : Nat) (sub : SubStep) : (s.atWrite b k sub).pins = s.pins := rfl
@[simp] theorem State.atWrite_busWrites (b k : Nat) (sub : SubStep) : (s.atWrite b k sub).busWrites = s.busWrites := rfl
@[simp] theorem State.atWrite_busReads (b k : Nat) (sub : SubStep) : (s.atWrite b k sub).busReads = s.busReads := rfl
@[simp] theorem State.atWrite_canvases (b k : Nat) (sub : SubStep) : (s.atWrite b k sub).canvases = s.canvases := rfl
@[simp] theorem State.atWrite_modules (b k : Nat) (sub : SubStep) : (s.atWrite b k sub).modules = s.modules := rfl
@[simp] theorem State.atWrite_moduleCount (b k : Nat) (sub : SubStep) : (s.atWrite b k sub).moduleCount = s.moduleCount := rfl
@[simp] theorem State.atWrite_trace (b k : Nat) (sub : SubStep) : (s.atWrite b k sub).trace = s.trace := rfl
@[simp] theorem State.atWrite_pinAnswer (b k : Nat) (sub : SubStep) (j : Nat) : (s.atWrite b k sub).pinAnswer j = s.pinAnswer j := rfl

/-! ### `State.answer` -/

@[simp] theorem State.answer_inbox (r : Result) : (s.answer r).inbox = s.inbox := rfl
@[simp] theorem State.answer_bench (r : Result) : (s.answer r).bench = s.bench := rfl
@[simp] theorem State.answer_cfg (r : Result) : (s.answer r).cfg = s.cfg := rfl
@[simp] theorem State.answer_disp (r : Result) : (s.answer r).disp = s.disp := rfl
@[simp] theorem State.answer_lines (r : Result) : (s.answer r).lines = s.lines := rfl
@[simp] theorem State.answer_scratch (r : Result) : (s.answer r).scratch = s.scratch := rfl
@[simp] theorem State.answer_sns (r : Result) : (s.answer r).sns = s.sns := rfl
@[simp] theorem State.answer_seq (r : Result) : (s.answer r).seq = s.seq := rfl
@[simp] theorem State.answer_tape (r : Result) : (s.answer r).tape = s.tape := rfl
@[simp] theorem State.answer_results (r : Result) : (s.answer r).results = s.results ++ [r] := rfl
@[simp] theorem State.answer_lastCut (r : Result) : (s.answer r).lastCut = s.lastCut := rfl
@[simp] theorem State.answer_pins (r : Result) : (s.answer r).pins = s.pins := rfl
@[simp] theorem State.answer_busWrites (r : Result) : (s.answer r).busWrites = s.busWrites := rfl
@[simp] theorem State.answer_busReads (r : Result) : (s.answer r).busReads = s.busReads := rfl
@[simp] theorem State.answer_canvases (r : Result) : (s.answer r).canvases = s.canvases := rfl
@[simp] theorem State.answer_modules (r : Result) : (s.answer r).modules = s.modules := rfl
@[simp] theorem State.answer_moduleCount (r : Result) : (s.answer r).moduleCount = s.moduleCount := rfl
@[simp] theorem State.answer_trace (r : Result) : (s.answer r).trace = s.trace := rfl
@[simp] theorem State.answer_pinAnswer (r : Result) (j : Nat) : (s.answer r).pinAnswer j = s.pinAnswer j := rfl

/-! ### `State.retire` -/

@[simp] theorem State.retire_inbox : s.retire.inbox = s.inbox := rfl
@[simp] theorem State.retire_bench : s.retire.bench = s.bench := rfl
@[simp] theorem State.retire_cfg : s.retire.cfg = s.cfg := rfl
@[simp] theorem State.retire_disp : s.retire.disp = s.disp := rfl
@[simp] theorem State.retire_lines : s.retire.lines = s.lines := rfl
@[simp] theorem State.retire_scratch : s.retire.scratch = Scratch.empty := rfl
@[simp] theorem State.retire_sns : s.retire.sns = s.sns := rfl
@[simp] theorem State.retire_seq : s.retire.seq = SeqPos.idle := rfl
@[simp] theorem State.retire_tape : s.retire.tape = s.tape := rfl
@[simp] theorem State.retire_results : s.retire.results = s.results := rfl
@[simp] theorem State.retire_lastCut : s.retire.lastCut = s.lastCut := rfl
@[simp] theorem State.retire_pins : s.retire.pins = s.pins := rfl
@[simp] theorem State.retire_busWrites : s.retire.busWrites = s.busWrites := rfl
@[simp] theorem State.retire_busReads : s.retire.busReads = s.busReads := rfl
@[simp] theorem State.retire_canvases : s.retire.canvases = s.canvases := rfl
@[simp] theorem State.retire_modules : s.retire.modules = s.modules := rfl
@[simp] theorem State.retire_moduleCount : s.retire.moduleCount = s.moduleCount := rfl
@[simp] theorem State.retire_trace : s.retire.trace = s.trace := rfl
@[simp] theorem State.retire_pinAnswer (j : Nat) : s.retire.pinAnswer j = s.pinAnswer j := rfl

/-! ### `State.fillTxbuf` -/

@[simp] theorem State.fillTxbuf_inbox (buf : List Byte) : (s.fillTxbuf buf).inbox = s.inbox := rfl
@[simp] theorem State.fillTxbuf_bench (buf : List Byte) : (s.fillTxbuf buf).bench = s.bench := rfl
@[simp] theorem State.fillTxbuf_cfg (buf : List Byte) : (s.fillTxbuf buf).cfg = s.cfg := rfl
@[simp] theorem State.fillTxbuf_disp (buf : List Byte) : (s.fillTxbuf buf).disp = s.disp := rfl
@[simp] theorem State.fillTxbuf_lines (buf : List Byte) : (s.fillTxbuf buf).lines = s.lines := rfl
@[simp] theorem State.fillTxbuf_scratch (buf : List Byte) : (s.fillTxbuf buf).scratch = { s.scratch with txbuf := buf } := rfl
@[simp] theorem State.fillTxbuf_sns (buf : List Byte) : (s.fillTxbuf buf).sns = s.sns := rfl
@[simp] theorem State.fillTxbuf_seq (buf : List Byte) : (s.fillTxbuf buf).seq = s.seq := rfl
@[simp] theorem State.fillTxbuf_tape (buf : List Byte) : (s.fillTxbuf buf).tape = s.tape := rfl
@[simp] theorem State.fillTxbuf_results (buf : List Byte) : (s.fillTxbuf buf).results = s.results := rfl
@[simp] theorem State.fillTxbuf_lastCut (buf : List Byte) : (s.fillTxbuf buf).lastCut = s.lastCut := rfl
@[simp] theorem State.fillTxbuf_pins (buf : List Byte) : (s.fillTxbuf buf).pins = s.pins := rfl
@[simp] theorem State.fillTxbuf_busWrites (buf : List Byte) : (s.fillTxbuf buf).busWrites = s.busWrites := rfl
@[simp] theorem State.fillTxbuf_busReads (buf : List Byte) : (s.fillTxbuf buf).busReads = s.busReads := rfl
@[simp] theorem State.fillTxbuf_canvases (buf : List Byte) : (s.fillTxbuf buf).canvases = s.canvases := rfl
@[simp] theorem State.fillTxbuf_modules (buf : List Byte) : (s.fillTxbuf buf).modules = s.modules := rfl
@[simp] theorem State.fillTxbuf_moduleCount (buf : List Byte) : (s.fillTxbuf buf).moduleCount = s.moduleCount := rfl
@[simp] theorem State.fillTxbuf_trace (buf : List Byte) : (s.fillTxbuf buf).trace = s.trace := rfl
@[simp] theorem State.fillTxbuf_pinAnswer (buf : List Byte) (j : Nat) : (s.fillTxbuf buf).pinAnswer j = s.pinAnswer j := rfl

/-! ### `State.onBench` -/

@[simp] theorem State.onBench_inbox (q : Issued) : (s.onBench q).inbox = s.inbox := rfl
@[simp] theorem State.onBench_bench (q : Issued) : (s.onBench q).bench = some q := rfl
@[simp] theorem State.onBench_cfg (q : Issued) : (s.onBench q).cfg = s.cfg := rfl
@[simp] theorem State.onBench_disp (q : Issued) : (s.onBench q).disp = s.disp := rfl
@[simp] theorem State.onBench_lines (q : Issued) : (s.onBench q).lines = s.lines := rfl
@[simp] theorem State.onBench_scratch (q : Issued) : (s.onBench q).scratch = s.scratch := rfl
@[simp] theorem State.onBench_sns (q : Issued) : (s.onBench q).sns = s.sns := rfl
@[simp] theorem State.onBench_seq (q : Issued) : (s.onBench q).seq = s.seq := rfl
@[simp] theorem State.onBench_tape (q : Issued) : (s.onBench q).tape = s.tape := rfl
@[simp] theorem State.onBench_results (q : Issued) : (s.onBench q).results = s.results := rfl
@[simp] theorem State.onBench_lastCut (q : Issued) : (s.onBench q).lastCut = s.lastCut := rfl
@[simp] theorem State.onBench_pins (q : Issued) : (s.onBench q).pins = s.pins := rfl
@[simp] theorem State.onBench_busWrites (q : Issued) : (s.onBench q).busWrites = s.busWrites := rfl
@[simp] theorem State.onBench_busReads (q : Issued) : (s.onBench q).busReads = s.busReads := rfl
@[simp] theorem State.onBench_canvases (q : Issued) : (s.onBench q).canvases = s.canvases := rfl
@[simp] theorem State.onBench_modules (q : Issued) : (s.onBench q).modules = s.modules := rfl
@[simp] theorem State.onBench_moduleCount (q : Issued) : (s.onBench q).moduleCount = s.moduleCount := rfl
@[simp] theorem State.onBench_trace (q : Issued) : (s.onBench q).trace = s.trace := rfl
@[simp] theorem State.onBench_pinAnswer (q : Issued) (j : Nat) : (s.onBench q).pinAnswer j = s.pinAnswer j := rfl

/-! ### `State.own` -/

@[simp] theorem State.own_inbox (l : Line) : (s.own l).inbox = s.inbox := rfl
@[simp] theorem State.own_bench (l : Line) : (s.own l).bench = s.bench := rfl
@[simp] theorem State.own_cfg (l : Line) : (s.own l).cfg = s.cfg := rfl
@[simp] theorem State.own_disp (l : Line) : (s.own l).disp = s.disp := rfl
@[simp] theorem State.own_lines (l : Line) : (s.own l).lines = s.lines.put l ⟨true, lineLevelOf Config.claimLevel⟩ := rfl
@[simp] theorem State.own_scratch (l : Line) : (s.own l).scratch = s.scratch := rfl
@[simp] theorem State.own_sns (l : Line) : (s.own l).sns = s.sns := rfl
@[simp] theorem State.own_seq (l : Line) : (s.own l).seq = s.seq := rfl
@[simp] theorem State.own_tape (l : Line) : (s.own l).tape = s.tape := rfl
@[simp] theorem State.own_results (l : Line) : (s.own l).results = s.results := rfl
@[simp] theorem State.own_lastCut (l : Line) : (s.own l).lastCut = s.lastCut := rfl
@[simp] theorem State.own_pins (l : Line) : (s.own l).pins = s.pins := rfl
@[simp] theorem State.own_busWrites (l : Line) : (s.own l).busWrites = s.busWrites := rfl
@[simp] theorem State.own_busReads (l : Line) : (s.own l).busReads = s.busReads := rfl
@[simp] theorem State.own_canvases (l : Line) : (s.own l).canvases = s.canvases := rfl
@[simp] theorem State.own_modules (l : Line) : (s.own l).modules = s.modules := rfl
@[simp] theorem State.own_moduleCount (l : Line) : (s.own l).moduleCount = s.moduleCount := rfl
@[simp] theorem State.own_trace (l : Line) : (s.own l).trace = s.trace := rfl
@[simp] theorem State.own_pinAnswer (l : Line) (j : Nat) : (s.own l).pinAnswer j = s.pinAnswer j := rfl

/-! ### `State.withCfg` -/

@[simp] theorem State.withCfg_inbox (c : Option Cfg) : (s.withCfg c).inbox = s.inbox := rfl
@[simp] theorem State.withCfg_bench (c : Option Cfg) : (s.withCfg c).bench = s.bench := rfl
@[simp] theorem State.withCfg_cfg (c : Option Cfg) : (s.withCfg c).cfg = c := rfl
@[simp] theorem State.withCfg_disp (c : Option Cfg) : (s.withCfg c).disp = s.disp := rfl
@[simp] theorem State.withCfg_lines (c : Option Cfg) : (s.withCfg c).lines = s.lines := rfl
@[simp] theorem State.withCfg_scratch (c : Option Cfg) : (s.withCfg c).scratch = s.scratch := rfl
@[simp] theorem State.withCfg_sns (c : Option Cfg) : (s.withCfg c).sns = s.sns := rfl
@[simp] theorem State.withCfg_seq (c : Option Cfg) : (s.withCfg c).seq = s.seq := rfl
@[simp] theorem State.withCfg_tape (c : Option Cfg) : (s.withCfg c).tape = s.tape := rfl
@[simp] theorem State.withCfg_results (c : Option Cfg) : (s.withCfg c).results = s.results := rfl
@[simp] theorem State.withCfg_lastCut (c : Option Cfg) : (s.withCfg c).lastCut = s.lastCut := rfl
@[simp] theorem State.withCfg_pins (c : Option Cfg) : (s.withCfg c).pins = s.pins := rfl
@[simp] theorem State.withCfg_busWrites (c : Option Cfg) : (s.withCfg c).busWrites = s.busWrites := rfl
@[simp] theorem State.withCfg_busReads (c : Option Cfg) : (s.withCfg c).busReads = s.busReads := rfl
@[simp] theorem State.withCfg_canvases (c : Option Cfg) : (s.withCfg c).canvases = s.canvases := rfl
@[simp] theorem State.withCfg_modules (c : Option Cfg) : (s.withCfg c).modules = s.modules := rfl
@[simp] theorem State.withCfg_trace (c : Option Cfg) : (s.withCfg c).trace = s.trace := rfl
@[simp] theorem State.withCfg_pinAnswer (c : Option Cfg) (j : Nat) : (s.withCfg c).pinAnswer j = s.pinAnswer j := rfl

/-! ### `State.withDisp` -/

@[simp] theorem State.withDisp_inbox (d : Disp) : (s.withDisp d).inbox = s.inbox := rfl
@[simp] theorem State.withDisp_bench (d : Disp) : (s.withDisp d).bench = s.bench := rfl
@[simp] theorem State.withDisp_cfg (d : Disp) : (s.withDisp d).cfg = s.cfg := rfl
@[simp] theorem State.withDisp_disp (d : Disp) : (s.withDisp d).disp = d := rfl
@[simp] theorem State.withDisp_lines (d : Disp) : (s.withDisp d).lines = s.lines := rfl
@[simp] theorem State.withDisp_scratch (d : Disp) : (s.withDisp d).scratch = s.scratch := rfl
@[simp] theorem State.withDisp_sns (d : Disp) : (s.withDisp d).sns = s.sns := rfl
@[simp] theorem State.withDisp_seq (d : Disp) : (s.withDisp d).seq = s.seq := rfl
@[simp] theorem State.withDisp_tape (d : Disp) : (s.withDisp d).tape = s.tape := rfl
@[simp] theorem State.withDisp_results (d : Disp) : (s.withDisp d).results = s.results := rfl
@[simp] theorem State.withDisp_lastCut (d : Disp) : (s.withDisp d).lastCut = s.lastCut := rfl
@[simp] theorem State.withDisp_pins (d : Disp) : (s.withDisp d).pins = s.pins := rfl
@[simp] theorem State.withDisp_busWrites (d : Disp) : (s.withDisp d).busWrites = s.busWrites := rfl
@[simp] theorem State.withDisp_busReads (d : Disp) : (s.withDisp d).busReads = s.busReads := rfl
@[simp] theorem State.withDisp_canvases (d : Disp) : (s.withDisp d).canvases = s.canvases := rfl
@[simp] theorem State.withDisp_modules (d : Disp) : (s.withDisp d).modules = s.modules := rfl
@[simp] theorem State.withDisp_moduleCount (d : Disp) : (s.withDisp d).moduleCount = s.moduleCount := rfl
@[simp] theorem State.withDisp_trace (d : Disp) : (s.withDisp d).trace = s.trace := rfl
@[simp] theorem State.withDisp_pinAnswer (d : Disp) (j : Nat) : (s.withDisp d).pinAnswer j = s.pinAnswer j := rfl

/-! ### `State.withSns` -/

@[simp] theorem State.withSns_inbox (v : Sns) : (s.withSns v).inbox = s.inbox := rfl
@[simp] theorem State.withSns_bench (v : Sns) : (s.withSns v).bench = s.bench := rfl
@[simp] theorem State.withSns_cfg (v : Sns) : (s.withSns v).cfg = s.cfg := rfl
@[simp] theorem State.withSns_disp (v : Sns) : (s.withSns v).disp = s.disp := rfl
@[simp] theorem State.withSns_lines (v : Sns) : (s.withSns v).lines = s.lines := rfl
@[simp] theorem State.withSns_scratch (v : Sns) : (s.withSns v).scratch = s.scratch := rfl
@[simp] theorem State.withSns_sns (v : Sns) : (s.withSns v).sns = v := rfl
@[simp] theorem State.withSns_seq (v : Sns) : (s.withSns v).seq = s.seq := rfl
@[simp] theorem State.withSns_tape (v : Sns) : (s.withSns v).tape = s.tape := rfl
@[simp] theorem State.withSns_results (v : Sns) : (s.withSns v).results = s.results := rfl
@[simp] theorem State.withSns_lastCut (v : Sns) : (s.withSns v).lastCut = s.lastCut := rfl
@[simp] theorem State.withSns_pins (v : Sns) : (s.withSns v).pins = s.pins := rfl
@[simp] theorem State.withSns_busWrites (v : Sns) : (s.withSns v).busWrites = s.busWrites := rfl
@[simp] theorem State.withSns_busReads (v : Sns) : (s.withSns v).busReads = s.busReads := rfl
@[simp] theorem State.withSns_canvases (v : Sns) : (s.withSns v).canvases = s.canvases := rfl
@[simp] theorem State.withSns_modules (v : Sns) : (s.withSns v).modules = s.modules := rfl
@[simp] theorem State.withSns_moduleCount (v : Sns) : (s.withSns v).moduleCount = s.moduleCount := rfl
@[simp] theorem State.withSns_trace (v : Sns) : (s.withSns v).trace = s.trace := rfl
@[simp] theorem State.withSns_pinAnswer (v : Sns) (j : Nat) : (s.withSns v).pinAnswer j = s.pinAnswer j := rfl

/-! ### `State.withScratch` -/

@[simp] theorem State.withScratch_inbox (r : Scratch) : (s.withScratch r).inbox = s.inbox := rfl
@[simp] theorem State.withScratch_bench (r : Scratch) : (s.withScratch r).bench = s.bench := rfl
@[simp] theorem State.withScratch_cfg (r : Scratch) : (s.withScratch r).cfg = s.cfg := rfl
@[simp] theorem State.withScratch_disp (r : Scratch) : (s.withScratch r).disp = s.disp := rfl
@[simp] theorem State.withScratch_lines (r : Scratch) : (s.withScratch r).lines = s.lines := rfl
@[simp] theorem State.withScratch_scratch (r : Scratch) : (s.withScratch r).scratch = r := rfl
@[simp] theorem State.withScratch_sns (r : Scratch) : (s.withScratch r).sns = s.sns := rfl
@[simp] theorem State.withScratch_seq (r : Scratch) : (s.withScratch r).seq = s.seq := rfl
@[simp] theorem State.withScratch_tape (r : Scratch) : (s.withScratch r).tape = s.tape := rfl
@[simp] theorem State.withScratch_results (r : Scratch) : (s.withScratch r).results = s.results := rfl
@[simp] theorem State.withScratch_lastCut (r : Scratch) : (s.withScratch r).lastCut = s.lastCut := rfl
@[simp] theorem State.withScratch_pins (r : Scratch) : (s.withScratch r).pins = s.pins := rfl
@[simp] theorem State.withScratch_busWrites (r : Scratch) : (s.withScratch r).busWrites = s.busWrites := rfl
@[simp] theorem State.withScratch_busReads (r : Scratch) : (s.withScratch r).busReads = s.busReads := rfl
@[simp] theorem State.withScratch_canvases (r : Scratch) : (s.withScratch r).canvases = s.canvases := rfl
@[simp] theorem State.withScratch_modules (r : Scratch) : (s.withScratch r).modules = s.modules := rfl
@[simp] theorem State.withScratch_moduleCount (r : Scratch) : (s.withScratch r).moduleCount = s.moduleCount := rfl
@[simp] theorem State.withScratch_trace (r : Scratch) : (s.withScratch r).trace = s.trace := rfl
@[simp] theorem State.withScratch_pinAnswer (r : Scratch) (j : Nat) : (s.withScratch r).pinAnswer j = s.pinAnswer j := rfl

/-! ### `State.receive` -/

@[simp] theorem State.receive_inbox (r : Reply) : (s.receive r).inbox = s.inbox := rfl
@[simp] theorem State.receive_bench (r : Reply) : (s.receive r).bench = s.bench := rfl
@[simp] theorem State.receive_cfg (r : Reply) : (s.receive r).cfg = s.cfg := rfl
@[simp] theorem State.receive_disp (r : Reply) : (s.receive r).disp = s.disp := rfl
@[simp] theorem State.receive_lines (r : Reply) : (s.receive r).lines = s.lines := rfl
@[simp] theorem State.receive_scratch (r : Reply) : (s.receive r).scratch = { s.scratch with rx := r } := rfl
@[simp] theorem State.receive_sns (r : Reply) : (s.receive r).sns = s.sns := rfl
@[simp] theorem State.receive_seq (r : Reply) : (s.receive r).seq = s.seq := rfl
@[simp] theorem State.receive_tape (r : Reply) : (s.receive r).tape = s.tape := rfl
@[simp] theorem State.receive_results (r : Reply) : (s.receive r).results = s.results := rfl
@[simp] theorem State.receive_lastCut (r : Reply) : (s.receive r).lastCut = s.lastCut := rfl
@[simp] theorem State.receive_pins (r : Reply) : (s.receive r).pins = s.pins := rfl
@[simp] theorem State.receive_busWrites (r : Reply) : (s.receive r).busWrites = s.busWrites := rfl
@[simp] theorem State.receive_busReads (r : Reply) : (s.receive r).busReads = s.busReads := rfl
@[simp] theorem State.receive_canvases (r : Reply) : (s.receive r).canvases = s.canvases := rfl
@[simp] theorem State.receive_modules (r : Reply) : (s.receive r).modules = s.modules := rfl
@[simp] theorem State.receive_moduleCount (r : Reply) : (s.receive r).moduleCount = s.moduleCount := rfl
@[simp] theorem State.receive_trace (r : Reply) : (s.receive r).trace = s.trace := rfl
@[simp] theorem State.receive_pinAnswer (r : Reply) (j : Nat) : (s.receive r).pinAnswer j = s.pinAnswer j := rfl

/-! ### Module counts and skipped answers -/

@[simp] theorem State.withCfg_moduleCount_some (c : Cfg) : (s.withCfg (some c)).moduleCount = c.n := rfl

@[simp] theorem State.withCfg_moduleCount_none : (s.withCfg none).moduleCount = 0 := rfl

theorem State.moduleCount_of_cfg {s : State} {c : Cfg} (h : s.cfg = some c) : s.moduleCount = c.n := by
  simp [State.moduleCount, h]

@[simp] theorem Feed.skip_zero {α : Type} (f : Feed α) : f.skip 0 = f := by simp [Feed.skip]

@[simp] theorem Feed.skip_skip {α : Type} (f : Feed α) (j k : Nat) : (f.skip j).skip k = f.skip (j + k) := by
  simp [Feed.skip, List.drop_drop, Nat.add_assoc]

theorem Feed.peek_skip {α : Type} (free : Nat → α) (f : Feed α) (j k : Nat) :
    (f.skip k).peek free j = f.peek free (k + j) := by
  simp [Feed.peek, Feed.skip, List.getElem?_drop, Nat.add_assoc]

/-! ### Lines -/

@[simp] theorem Lines.get_withLevel_owned (ls : Lines) (l m : Line) (v : LineLevel) :
    ((ls.withLevel l v).get m).owned = (ls.get m).owned := by
  cases l <;> cases m <;> rfl

theorem Lines.get_withLevel_level (ls : Lines) (l m : Line) (v : LineLevel) :
    ((ls.withLevel l v).get m).level = if m = l then v else (ls.get m).level := by
  cases l <;> cases m <;> rfl

@[simp] theorem Lines.withLevel_allOwned (ls : Lines) (l : Line) (v : LineLevel) :
    (ls.withLevel l v).allOwned = ls.allOwned := by
  cases l <;> rfl

@[simp] theorem Lines.withLevel_noneOwned (ls : Lines) (l : Line) (v : LineLevel) :
    (ls.withLevel l v).noneOwned = ls.noneOwned := by
  cases l <;> rfl

@[simp] theorem Lines.released_noneOwned (ls : Lines) : ls.released.noneOwned = true := rfl

end Sys2Proof.Machine
end

