-- ==== Sys2Proof/Laws/Run.lean ====
section
/-! SUPPORT. What the shared operations of the serial port can do, said once: a list of line writes is sent whole, or is
cut at the first that fails; and the algebra of `State.emitted`, `State.lost`, `State.withSeq`. -/

namespace Sys2Proof.Machine

/-! ### The algebra of emitted events -/

@[simp] theorem Lines.follow_nil (ls : Lines) : ls.follow [] = ls := rfl

theorem Lines.follow_append (ls : Lines) (a b : List Event) : ls.follow (a ++ b) = (ls.follow a).follow b := by
  simp [Lines.follow, List.foldl_append]

@[simp] theorem Observer.watch_nil (n : Nat) (o : Observer) : o.watch n [] = o := rfl

@[simp] theorem Observer.watch_cons (n : Nat) (o : Observer) (e : Event) (es : List Event) :
    o.watch n (e :: es) = (o.onEvent n e).watch n es := rfl

theorem Observer.watch_append (n : Nat) (o : Observer) (a b : List Event) :
    o.watch n (a ++ b) = (o.watch n a).watch n b := by
  simp [Observer.watch, List.foldl_append]

@[simp] theorem State.emitted_nil (s : State) : s.emitted [] = s := by simp [State.emitted]

@[simp] theorem State.emitted_moduleCount (es : List Event) (s : State) : (s.emitted es).moduleCount = s.moduleCount :=
  rfl

theorem State.emitted_emitted (a b : List Event) (s : State) : (s.emitted a).emitted b = s.emitted (a ++ b) := by
  simp [State.emitted, Lines.follow_append, Observer.watch_append, State.moduleCount]

@[simp] theorem State.emitted_trace (es : List Event) (s : State) : (s.emitted es).trace = s.trace ++ es := by
  simp [State.emitted, State.trace]

@[simp] theorem State.emitted_pinAnswer (es : List Event) (s : State) (j : Nat) :
    (s.emitted es).pinAnswer j = s.pinAnswer (es.length + j) := Feed.peek_skip _ _ _ _

@[simp] theorem State.withSeq_withSeq (q r : SeqPos) (s : State) : (s.withSeq q).withSeq r = s.withSeq r := rfl

@[simp] theorem State.withSeq_emitted (q : SeqPos) (es : List Event) (s : State) :
    (s.withSeq q).emitted es = (s.emitted es).withSeq q := rfl

@[simp] theorem State.withSeq_lost (q : SeqPos) (l : Line) (s : State) :
    (s.withSeq q).lost l = (s.lost l).withSeq q := rfl

@[simp] theorem State.withSeq_pinAnswer (q : SeqPos) (s : State) (j : Nat) :
    (s.withSeq q).pinAnswer j = s.pinAnswer j := rfl

@[simp] theorem State.withSeq_moduleCount (q : SeqPos) (s : State) : (s.withSeq q).moduleCount = s.moduleCount := rfl

@[simp] theorem State.withSeq_seq (q : SeqPos) (s : State) : (s.withSeq q).seq = q := rfl

theorem State.atWrite_eq_withSeq (b k : Nat) (sub : SubStep) (s : State) :
    s.atWrite b k sub = s.withSeq { s.seq with b := b, k := k, s := sub } := rfl

theorem State.atModule_eq_withSeq (p : Phase) (i r : Nat) (s : State) :
    s.atModule p i r = s.withSeq { s.seq with phase := p, i := i, r := r } := rfl

/-! ### Runs -/

@[simp] theorem Run.ok_andThen (s : State) (k : State → Run) : (Run.ok s).andThen k = k s := rfl

@[simp] theorem Run.raise_andThen (e : Err) (s : State) (k : State → Run) : (Run.raise e s).andThen k = Run.raise e s :=
  rfl

@[simp] theorem Run.ok_onRaise (s : State) (f : State → State) : (Run.ok s).onRaise f = Run.ok s := rfl

@[simp] theorem Run.raise_onRaise (e : Err) (s : State) (f : State → State) :
    (Run.raise e s).onRaise f = Run.raise e (f s) := rfl

theorem Run.andThen_assoc (r : Run) (f g : State → Run) : (r.andThen f).andThen g = r.andThen fun s => (f s).andThen g := by
  rcases r with ⟨_ | e, s⟩ <;> rfl

@[simp] theorem conclude_ok (f : State → State) (s : State) : conclude f (Run.ok s) = (f s).retire := rfl

@[simp] theorem conclude_raise (f : State → State) (e : Err) (s : State) :
    conclude f (Run.raise e s) = takeError e s := rfl

/-- The two ends of a run, with nothing between them. -/
theorem Run.cases (r : Run) : (∃ s, r = Run.ok s) ∨ ∃ e s, r = Run.raise e s := by
  rcases r with ⟨_ | e, s⟩
  · exact .inl ⟨s, rfl⟩
  · exact .inr ⟨e, s, rfl⟩

theorem takeError_eq_failed (e : Err) (s : State) : takeError e s = s.failed e s.seq := rfl

theorem answer_retire_eq_ended (r : Result) (s : State) : (s.answer r).retire = s.ended r := rfl

/-! ### Line writes -/

/-- The coordinates after line writes. -/
def seqAfter (ws : List LineWrite) (q : SeqPos) : SeqPos :=
  ws.foldl (fun q w => { q with b := w.b, k := w.k, s := w.sub }) q

theorem seqAfter_fields (ws : List LineWrite) (q : SeqPos) :
    (seqAfter ws q).op = q.op ∧ (seqAfter ws q).phase = q.phase ∧ (seqAfter ws q).i = q.i ∧ (seqAfter ws q).r = q.r := by
  induction ws generalizing q with
  | nil => exact ⟨rfl, rfl, rfl, rfl⟩
  | cons w ws ih => exact ih _

/-- The coordinates after line writes the last of which is `w`: those of `w`, with the operation's part kept. -/
theorem seqAfter_take {ws : List LineWrite} {j : Nat} {w : LineWrite} (h : ws[j]? = some w) (q : SeqPos) :
    seqAfter (ws.take (j + 1)) q = { q with b := w.b, k := w.k, s := w.sub } := by
  obtain ⟨hj, rfl⟩ := List.getElem?_eq_some_iff.1 h
  obtain ⟨h1, h2, h3, h4⟩ := seqAfter_fields (ws.take j) q
  rw [List.take_succ_eq_append_getElem hj]
  simp only [seqAfter, List.foldl_append, List.foldl_cons, List.foldl_nil] at h1 h2 h3 h4 ⊢
  rw [h1, h2, h3, h4]

/-- A line write that PinOracle lets pass. -/
theorem lineWrite_ok {w : LineWrite} {s : State} (h : s.pinAnswer 0 = true) :
    lineWrite w s = Run.ok ((s.emitted [w.event]).withSeq (seqAfter [w] s.seq)) := by
  simp only [lineWrite, h, if_true]
  rfl

/-- A line write that fails (40_serial_port R112). -/
theorem lineWrite_fail {w : LineWrite} {s : State} (h : s.pinAnswer 0 = false) :
    lineWrite w s = Run.raise .data ((s.lost w.line).withSeq (seqAfter [w] s.seq)) := by
  simp only [lineWrite, h]
  rfl

/-- Line writes that PinOracle lets pass are all done. -/
theorem driveAll_ok {ws : List LineWrite} {s : State} (h : s.pinsOk ws.length) :
    driveAll ws s = Run.ok ((s.emitted (ws.map LineWrite.event)).withSeq (seqAfter ws s.seq)) := by
  induction ws generalizing s with
  | nil => simp [driveAll, seqAfter, State.withSeq]
  | cons w ws ih =>
    have h0 : s.pinAnswer 0 = true := h 0 (by simp)
    rw [driveAll, lineWrite_ok h0, Run.ok_andThen, ih]
    · simp only [State.withSeq_emitted, State.withSeq_withSeq, State.emitted_emitted, List.map_cons, List.singleton_append,
        State.withSeq_seq]
      rfl
    · intro j hj
      have := h (j + 1) (by simpa using hj)
      simpa [Nat.add_comm] using this

/-- Line writes are cut at the first that fails: those before it are done, it leaves its line Unknown, and nothing after
it happens (40_serial_port R112, 60_exceptions R291). -/
theorem driveAll_cut {ws : List LineWrite} {s : State} {j : Nat} {w : LineWrite} (hw : ws[j]? = some w)
    (hok : s.pinsOk j) (hf : s.pinAnswer j = false) :
    driveAll ws s = Run.raise .data
      (((s.emitted ((ws.take j).map LineWrite.event)).lost w.line).withSeq (seqAfter (ws.take (j + 1)) s.seq)) := by
  induction ws generalizing s j with
  | nil => simp at hw
  | cons v ws ih =>
    cases j with
    | zero =>
      obtain rfl : v = w := by simpa using hw
      rw [driveAll, lineWrite_fail hf, Run.raise_andThen]
      simp [seqAfter]
    | succ j =>
      have h0 : s.pinAnswer 0 = true := hok 0 (by simp)
      rw [driveAll, lineWrite_ok h0, Run.ok_andThen, ih (j := j) (by simpa using hw)]
      · simp only [State.withSeq_emitted, State.withSeq_lost, State.withSeq_withSeq, State.emitted_emitted, List.take_succ_cons,
          List.map_cons, List.singleton_append, State.withSeq_seq]
        rfl
      · intro k hk
        have := hok (k + 1) (by omega)
        simpa [Nat.add_comm] using this
      · simpa [Nat.add_comm] using hf

/-- Line writes either all pass or are cut at the first that fails. -/
theorem driveAll_cases (ws : List LineWrite) (s : State) :
    s.pinsOk ws.length ∨ ∃ j w, ws[j]? = some w ∧ s.pinsOk j ∧ s.pinAnswer j = false := by
  induction ws generalizing s with
  | nil => exact .inl fun j hj => absurd hj (by simp)
  | cons v ws ih =>
    cases h0 : s.pinAnswer 0 with
    | false => exact .inr ⟨0, v, by simp, fun j hj => absurd hj (by omega), h0⟩
    | true =>
      rcases ih s.askPin with h | ⟨j, w, hw, hok, hf⟩
      · left
        intro j hj
        cases j with
        | zero => exact h0
        | succ j => simpa using h j (by simpa using hj)
      · refine .inr ⟨j + 1, w, by simpa using hw, ?_, by simpa using hf⟩
        intro k hk
        cases k with
        | zero => exact h0
        | succ k => simpa using hok k (by omega)

/-! ### Frames -/

@[simp] theorem bitWrites_length (b : Nat) (v : Byte) (k : Nat) : (bitWrites b v k).length = 3 := rfl

@[simp] theorem byteWrites_length (b : Nat) (v : Byte) : (byteWrites b v).length = 24 := rfl

@[simp] theorem bytesWrites_length (b : Nat) (vs : List Byte) : (bytesWrites b vs).length = 24 * vs.length := by
  induction vs generalizing b with
  | nil => rfl
  | cons v vs ih => simp [bytesWrites, ih]; omega

@[simp] theorem frameWrites_length (buf : List Byte) : (frameWrites buf).length = 2 + 24 * buf.length := by
  simp [frameWrites]; omega

@[simp] theorem frameEvents_length (buf : List Byte) : (frameEvents buf).length = 2 + 24 * buf.length := by
  simp [frameEvents]

/-- W_NOOP is two zero bytes, so that a buffer of W_NOOP is all zeros (40_serial_port R115). -/
theorem noopBuffer_eq (n : Nat) : noopBuffer n = List.replicate (2 * n) 0x00#8 := by
  induction n with
  | zero => rfl
  | succ n ih =>
    rw [noopBuffer] at ih
    rw [noopBuffer, List.replicate_succ, List.flatten_cons, ih, Nat.mul_succ, Nat.add_comm, List.replicate_add]
    rfl

@[simp] theorem wireBuffer_length (n i : Nat) (sel dat : Byte) : (wireBuffer n i sel dat).length = 2 * n := by
  simp [wireBuffer, placeWord, noopBuffer_eq]

end Sys2Proof.Machine
end

