-- ==== Sys2Proof/Laws/Send.lean ====
section
/-! SUPPORT. What sending wire commands can do, said once: the frames of a list of commands are sent whole, or are cut at
the first line write that fails. Results are up to the coordinates and the operation's own registers, which lose their
value when the operation ends. -/

namespace Sys2Proof.Machine

@[simp] theorem State.withScratch_emitted (r : Scratch) (es : List Event) (s : State) :
    (s.withScratch r).emitted es = (s.emitted es).withScratch r := rfl

@[simp] theorem State.withScratch_lost (r : Scratch) (l : Line) (s : State) :
    (s.withScratch r).lost l = (s.lost l).withScratch r := rfl

@[simp] theorem State.withScratch_withScratch (r t : Scratch) (s : State) :
    (s.withScratch r).withScratch t = s.withScratch t := rfl

@[simp] theorem State.withScratch_withSeq (r : Scratch) (q : SeqPos) (s : State) :
    (s.withScratch r).withSeq q = (s.withSeq q).withScratch r := rfl

theorem State.fillTxbuf_eq_withScratch (buf : List Byte) (s : State) :
    s.fillTxbuf buf = s.withScratch { s.scratch with txbuf := buf } := rfl

@[simp] theorem State.withSeq_scratch (q : SeqPos) (s : State) : (s.withSeq q).scratch = s.scratch := rfl

@[simp] theorem State.emitted_scratch (es : List Event) (s : State) : (s.emitted es).scratch = s.scratch := rfl

@[simp] theorem State.emitted_seq (es : List Event) (s : State) : (s.emitted es).seq = s.seq := rfl

@[simp] theorem State.lost_seq (l : Line) (s : State) : (s.lost l).seq = s.seq := rfl

/-- A wire command as line writes. -/
theorem wireCommand_eq_driveAll (w : Wire) (s : State) :
    wireCommand w s =
      driveAll (frameWrites (wireBuffer s.moduleCount s.seq.i w.sel w.dat))
        (s.withScratch { s.scratch with txbuf := wireBuffer s.moduleCount s.seq.i w.sel w.dat }) := rfl

/-- A wire command that PinOracle lets pass is one whole frame (40_serial_port R115). -/
theorem wireCommand_ok {w : Wire} {s : State}
    (h : s.pinsOk (frameEvents (wireBuffer s.moduleCount s.seq.i w.sel w.dat)).length) :
    ∃ q r, q.op = s.seq.op ∧ wireCommand w s =
      Run.ok (((s.emitted (frameEvents (wireBuffer s.moduleCount s.seq.i w.sel w.dat))).withSeq q).withScratch r) := by
  refine ⟨seqAfter (frameWrites (wireBuffer s.moduleCount s.seq.i w.sel w.dat)) s.seq,
    { s.scratch with txbuf := wireBuffer s.moduleCount s.seq.i w.sel w.dat }, (seqAfter_fields _ _).1, ?_⟩
  rw [wireCommand_eq_driveAll, driveAll_ok]
  · rfl
  · intro j hj
    exact h j (by simpa [frameEvents] using hj)

/-- A wire command is cut at the first line write that fails, at that write's coordinates (40_serial_port R112). -/
theorem wireCommand_cut {w : Wire} {s : State} {j : Nat} {x : LineWrite}
    (hx : (frameWrites (wireBuffer s.moduleCount s.seq.i w.sel w.dat))[j]? = some x)
    (hok : s.pinsOk j) (hf : s.pinAnswer j = false) :
    ∃ r, wireCommand w s = Run.raise .data
      ((((s.emitted ((frameEvents (wireBuffer s.moduleCount s.seq.i w.sel w.dat)).take j)).lost x.line).withSeq
        { s.seq with b := x.b, k := x.k, s := x.sub }).withScratch r) := by
  refine ⟨{ s.scratch with txbuf := wireBuffer s.moduleCount s.seq.i w.sel w.dat }, ?_⟩
  rw [wireCommand_eq_driveAll,
    driveAll_cut (s := s.withScratch { s.scratch with txbuf := wireBuffer s.moduleCount s.seq.i w.sel w.dat }) hx hok hf,
    seqAfter_take hx, frameEvents, List.map_take]
  rfl

/-- The frames of a list of wire commands of an operation, with `n` modules. -/
def sendBuffers (n : Nat) (ws : List Send) : List (List Byte) := ws.map fun w => wireBuffer n w.i w.wire.sel w.wire.dat

/-- Wire commands that PinOracle lets pass are all sent, as whole frames in order. -/
theorem sendAll_ok {ws : List Send} {s : State} (h : s.pinsOk (framesEvents (sendBuffers s.moduleCount ws)).length) :
    ∃ q r, q.op = s.seq.op ∧ sendAll ws s =
      Run.ok (((s.emitted (framesEvents (sendBuffers s.moduleCount ws))).withSeq q).withScratch r) := by
  induction ws generalizing s with
  | nil => exact ⟨s.seq, s.scratch, rfl, by simp [sendAll, sendBuffers, framesEvents, State.withSeq, State.withScratch]⟩
  | cons w ws ih =>
    have hlen : (framesEvents (sendBuffers s.moduleCount (w :: ws))).length =
        (frameEvents (wireBuffer s.moduleCount w.i w.wire.sel w.wire.dat)).length +
          (framesEvents (sendBuffers s.moduleCount ws)).length := by
      simp [sendBuffers, framesEvents]
    obtain ⟨q, r, hq, hone⟩ := wireCommand_ok (w := w.wire) (s := s.atModule w.phase w.i w.r)
      (fun j hj => h j (by rw [hlen]; exact Nat.lt_add_right _ hj))
    obtain ⟨q', r', hq', hrest⟩ := ih
      (s := (((s.atModule w.phase w.i w.r).emitted
        (frameEvents (wireBuffer s.moduleCount w.i w.wire.sel w.wire.dat))).withSeq q).withScratch r)
      (fun j hj => by
        have hj' : j < (framesEvents (sendBuffers s.moduleCount ws)).length := hj
        simpa using h ((frameEvents (wireBuffer s.moduleCount w.i w.wire.sel w.wire.dat)).length + j) (by omega))
    refine ⟨q', r', ?_, ?_⟩
    · rw [hq', State.withScratch_seq, State.withSeq_seq, hq]
      rfl
    · rw [sendAll, sendOne, hone, Run.ok_andThen]
      refine hrest.trans ?_
      simp only [State.withScratch_emitted, State.withSeq_emitted, State.emitted_emitted, State.atModule_eq_withSeq,
        State.withScratch_withSeq, State.withSeq_withSeq, State.withScratch_withScratch, State.withScratch_moduleCount,
        State.withSeq_moduleCount, State.emitted_moduleCount]
      simp [sendBuffers, framesEvents]

/-- Every event of frames is a line event. -/
theorem framesEvents_isSet {bufs : List (List Byte)} {e : Event} (h : e ∈ framesEvents bufs) : ∃ l v, e = .set l v := by
  simp only [framesEvents, frameEvents, List.mem_flatMap, List.mem_map] at h
  obtain ⟨_, _, w, _, rfl⟩ := h
  exact ⟨w.line, w.level, rfl⟩

/-- The coordinates of line write `x` of the wire command `w` of an operation (10_state R27). -/
def Send.position (w : Send) (op : SeqOp) (x : LineWrite) : SeqPos := ⟨op, w.phase, w.i, w.r, x.b, x.k, x.sub⟩

/-- Wire commands are cut at the first line write that fails: it is write `m` of the frame of command `f`, what was sent
before stays sent, and the coordinates are that write's (60_exceptions R290, 10_state R27). -/
theorem sendAll_cut {ws : List Send} {s : State} {j : Nat} (hj : j < (framesEvents (sendBuffers s.moduleCount ws)).length)
    (hok : s.pinsOk j) (hf : s.pinAnswer j = false) :
    ∃ f m w x r, ws[f]? = some w ∧ (frameWrites (wireBuffer s.moduleCount w.i w.wire.sel w.wire.dat))[m]? = some x ∧
      j = (framesEvents (sendBuffers s.moduleCount (ws.take f))).length + m ∧
      sendAll ws s = Run.raise .data
        ((((s.emitted ((framesEvents (sendBuffers s.moduleCount ws)).take j)).lost x.line).withSeq
          (w.position s.seq.op x)).withScratch r) := by
  induction ws generalizing s j with
  | nil => simp [sendBuffers, framesEvents] at hj
  | cons w ws ih =>
    have hcat : framesEvents (sendBuffers s.moduleCount (w :: ws)) =
        frameEvents (wireBuffer s.moduleCount w.i w.wire.sel w.wire.dat) ++ framesEvents (sendBuffers s.moduleCount ws) := by
      simp [sendBuffers, framesEvents]
    rw [hcat] at hj ⊢
    by_cases hlt : j < (frameEvents (wireBuffer s.moduleCount w.i w.wire.sel w.wire.dat)).length
    · have hx := List.getElem?_eq_getElem (l := frameWrites (wireBuffer s.moduleCount w.i w.wire.sel w.wire.dat))
        (i := j) (by simpa using hlt)
      obtain ⟨r, hone⟩ := wireCommand_cut (w := w.wire) (s := s.atModule w.phase w.i w.r) hx hok hf
      refine ⟨0, j, w, _, r, rfl, hx, by simp [sendBuffers, framesEvents], ?_⟩
      rw [sendAll, sendOne, hone, Run.raise_andThen, List.take_append_of_le_length (Nat.le_of_lt hlt)]
      rfl
    · obtain ⟨k, rfl⟩ : ∃ k, j = (frameEvents (wireBuffer s.moduleCount w.i w.wire.sel w.wire.dat)).length + k :=
        ⟨_, (Nat.add_sub_cancel' (Nat.le_of_not_lt hlt)).symm⟩
      obtain ⟨q, r, hq, hone⟩ := wireCommand_ok (w := w.wire) (s := s.atModule w.phase w.i w.r)
        (fun i hi => hok i (Nat.lt_add_right _ hi))
      obtain ⟨f, m, v, x, r', hv, hx, hk, hrest⟩ := ih (j := k)
        (s := (((s.atModule w.phase w.i w.r).emitted
          (frameEvents (wireBuffer s.moduleCount w.i w.wire.sel w.wire.dat))).withSeq q).withScratch r)
        (by rw [List.length_append] at hj; exact Nat.lt_of_add_lt_add_left hj)
        (fun i hi => by
          simpa using hok ((frameEvents (wireBuffer s.moduleCount w.i w.wire.sel w.wire.dat)).length + i) (by omega))
        (by simpa using hf)
      have hop : q.op = s.seq.op := hq
      have hmc : State.moduleCount ((((s.atModule w.phase w.i w.r).emitted
          (frameEvents (wireBuffer s.moduleCount w.i w.wire.sel w.wire.dat))).withSeq q).withScratch r) = s.moduleCount :=
        rfl
      rw [hmc] at hx hk hrest
      refine ⟨f + 1, m, v, x, r', by simpa using hv, hx, ?_, ?_⟩
      · rw [hk]
        simp [sendBuffers, framesEvents, Nat.add_assoc]
      · rw [sendAll, sendOne, hone, Run.ok_andThen]
        refine hrest.trans ?_
        rw [State.withScratch_seq, State.withSeq_seq, hop]
        simp only [State.withScratch_emitted, State.withSeq_emitted, State.emitted_emitted, State.atModule_eq_withSeq,
          State.withScratch_withSeq, State.withSeq_withSeq, State.withScratch_withScratch,
          State.withScratch_lost, State.withSeq_lost]
        rw [List.take_append, List.take_of_length_le (Nat.le_add_right _ _), Nat.add_sub_cancel_left]

/-- Questions to PinOracle either all pass or are cut at the first that fails. -/
theorem pinsOk_cases (s : State) (k : Nat) : s.pinsOk k ∨ ∃ j, j < k ∧ s.pinsOk j ∧ s.pinAnswer j = false := by
  induction k with
  | zero => exact .inl fun j hj => absurd hj (by omega)
  | succ k ih =>
    rcases ih with h | ⟨j, hj, hok, hf⟩
    · cases hk : s.pinAnswer k with
      | false => exact .inr ⟨k, by omega, h, hk⟩
      | true =>
        left
        intro j hj
        rcases Nat.lt_succ_iff_lt_or_eq.1 hj with hlt | rfl
        · exact h j hlt
        · exact hk
    · exact .inr ⟨j, by omega, hok, hf⟩

/-- Sending wire commands ends in one of two ways: all frames whole, or a cut. -/
theorem sendAll_cases (ws : List Send) (s : State) :
    (∃ q r, q.op = s.seq.op ∧ sendAll ws s =
      Run.ok (((s.emitted (framesEvents (sendBuffers s.moduleCount ws))).withSeq q).withScratch r)) ∨
    ∃ j l q r, q.op = s.seq.op ∧ sendAll ws s = Run.raise .data
      ((((s.emitted ((framesEvents (sendBuffers s.moduleCount ws)).take j)).lost l).withSeq q).withScratch r) := by
  rcases pinsOk_cases s (framesEvents (sendBuffers s.moduleCount ws)).length with h | ⟨j, hj, hok, hf⟩
  · exact .inl (sendAll_ok h)
  · obtain ⟨_, _, w, x, r, _, _, _, h⟩ := sendAll_cut hj hok hf
    exact .inr ⟨j, x.line, w.position s.seq.op x, r, rfl, h⟩

/-! ### The frames of the operations -/

theorem Wire.row_sel (r : Fin 8) (d : Byte) : (Wire.row r d).sel = BitVec.ofNat 8 (r.val + 1) := by
  rw [Wire.sel, Config.opRow, Config.opRow0, Nat.add_comm r.val 1, BitVec.ofNat_add]

theorem sendBuffers_append (n : Nat) (a b : List Send) : sendBuffers n (a ++ b) = sendBuffers n a ++ sendBuffers n b := by
  simp [sendBuffers]

theorem sendBuffers_eachModule (n : Nat) (p : Phase) (w : Wire) :
    sendBuffers n (eachModule p w n) = moduleFrames n w.sel w.dat := by
  simp [sendBuffers, eachModule, moduleFrames]

theorem sendBuffers_eachRow (n : Nat) (p : Phase) (d : Nat → Nat → Byte) :
    sendBuffers n (eachRow p d n) = rowFrames n d := by
  have h8 : ∀ f : Nat → List Byte, (List.finRange 8).map (fun r => f r.val) = (List.range 8).map f := fun f => by
    rw [← List.map_coe_finRange_eq_range, List.map_map]
    rfl
  simp only [sendBuffers, eachRow, rowFrames, List.map_flatMap, List.map_map, Function.comp_def, Wire.row_sel, Wire.dat]
  exact congrArg (fun f => (List.range n).flatMap f) (funext fun i => h8 fun r => wireBuffer n i (BitVec.ofNat 8 (r + 1)) (d i r))

theorem sendBuffers_newSends (n : Nat) (level : Byte) : sendBuffers n (newSends n level) = newFrames n level := by
  simp only [newSends, sendBuffers_append, sendBuffers_eachModule, sendBuffers_eachRow, newFrames, clearFrames,
    brightnessFrames, Wire.sel, Wire.dat, Config.opPower, Config.dataPowerOn, Config.opDecode, Config.dataDecodeRaw,
    Config.opIntensity]

/-- Frames of one length: the number of their events. -/
theorem framesEvents_length {bufs : List (List Byte)} {k : Nat} (h : ∀ buf ∈ bufs, buf.length = k) :
    (framesEvents bufs).length = bufs.length * (2 + 24 * k) := by
  induction bufs with
  | nil => simp [framesEvents]
  | cons b bs ih =>
    have hb := h b (by simp)
    have := ih fun x hx => h x (by simp [hx])
    simp only [framesEvents, List.flatMap_cons, List.length_append, frameEvents_length, List.length_cons, hb] at this ⊢
    rw [this]
    ring

/-- A number of a frame and of a line write in it are determined by the number of the write among all. -/
theorem frame_write_unique {len f m f' m' : Nat} (h : f * len + m = f' * len + m') (hm : m < len) (hm' : m' < len) :
    f = f' ∧ m = m' := by
  have h1 : (f * len + m) / len = f := by
    rw [Nat.add_comm, Nat.add_mul_div_right _ _ (by omega), Nat.div_eq_of_lt hm, Nat.zero_add]
  have h2 : (f' * len + m') / len = f' := by
    rw [Nat.add_comm, Nat.add_mul_div_right _ _ (by omega), Nat.div_eq_of_lt hm', Nat.zero_add]
  obtain rfl : f = f' := by rw [← h1, h, h2]
  exact ⟨rfl, by omega⟩

/-- Every frame of an operation has two bytes for each module. -/
theorem sendBuffers_frame_length {n : Nat} {ws : List Send} : ∀ buf ∈ sendBuffers n ws, buf.length = 2 * n := by
  intro buf hbuf
  rw [sendBuffers, List.mem_map] at hbuf
  obtain ⟨_, _, rfl⟩ := hbuf
  exact wireBuffer_length _ _ _ _

/-- The number of events of the frames of an operation (40_serial_port R116). -/
theorem sendBuffers_events_length (n : Nat) (ws : List Send) :
    (framesEvents (sendBuffers n ws)).length = ws.length * (2 + 48 * n) := by
  rw [framesEvents_length sendBuffers_frame_length, sendBuffers, List.length_map]
  ring

/-- `sendAll_cut` for a given write `m` of a given frame `f`. -/
theorem sendAll_cut_at {ws : List Send} {s : State} {f m : Nat} {buf : List Byte} {x : LineWrite}
    (hbuf : (sendBuffers s.moduleCount ws)[f]? = some buf) (hx : (frameWrites buf)[m]? = some x)
    (hok : s.pinsOk (f * (2 + 48 * s.moduleCount) + m)) (hf : s.pinAnswer (f * (2 + 48 * s.moduleCount) + m) = false) :
    ∃ w r, ws[f]? = some w ∧ sendAll ws s = Run.raise .data
      ((((s.emitted ((framesEvents (sendBuffers s.moduleCount ws)).take
        (f * (2 + 48 * s.moduleCount) + m))).lost x.line).withSeq (w.position s.seq.op x)).withScratch r) := by
  have hfl : f < ws.length := by simpa [sendBuffers] using (List.getElem?_eq_some_iff.1 hbuf).1
  have hwrites : ∀ b : List Byte, b.length = 2 * s.moduleCount → (frameWrites b).length = 2 + 48 * s.moduleCount := by
    intro b hb
    rw [frameWrites_length, hb]
    omega
  have hm : m < 2 + 48 * s.moduleCount := by
    rw [← hwrites buf (sendBuffers_frame_length buf (List.mem_of_getElem? hbuf))]
    exact (List.getElem?_eq_some_iff.1 hx).1
  have hj : f * (2 + 48 * s.moduleCount) + m < (framesEvents (sendBuffers s.moduleCount ws)).length := by
    have := Nat.mul_le_mul_right (2 + 48 * s.moduleCount) hfl
    rw [Nat.succ_mul] at this
    rw [sendBuffers_events_length]
    omega
  obtain ⟨f', m', w, x', r, hw, hx', he, hs⟩ := sendAll_cut hj hok hf
  have hf' : f' ≤ ws.length := Nat.le_of_lt (List.getElem?_eq_some_iff.1 hw).1
  rw [sendBuffers_events_length, List.length_take, Nat.min_eq_left hf'] at he
  have hm' : m' < 2 + 48 * s.moduleCount := by
    rw [← hwrites _ (wireBuffer_length _ w.i w.wire.sel w.wire.dat)]
    exact (List.getElem?_eq_some_iff.1 hx').1
  obtain ⟨rfl, rfl⟩ := frame_write_unique he hm hm'
  have hbe : (sendBuffers s.moduleCount ws)[f]? = some (wireBuffer s.moduleCount w.i w.wire.sel w.wire.dat) := by
    simp [sendBuffers, hw]
  obtain rfl : wireBuffer s.moduleCount w.i w.wire.sel w.wire.dat = buf := Option.some.inj (hbe.symm.trans hbuf)
  obtain rfl : x = x' := Option.some.inj (hx.symm.trans hx')
  exact ⟨w, r, hw, hs⟩

/-! ### Where the commands of an operation are sent (10_state R27) -/

@[simp] theorem eachModule_length (p : Phase) (w : Wire) (n : Nat) : (eachModule p w n).length = n := by simp [eachModule]

@[simp] theorem eachRow_length (p : Phase) (d : Nat → Nat → Byte) (n : Nat) : (eachRow p d n).length = 8 * n := by
  simp [eachRow, List.length_flatMap]
  omega

theorem eachModule_at {p : Phase} {v : Wire} {n f : Nat} {w : Send} (h : (eachModule p v n)[f]? = some w) :
    w.phase = p ∧ w.i = f ∧ w.r = 0 := by
  rw [eachModule, List.getElem?_map, Option.map_eq_some_iff] at h
  obtain ⟨i, hi, rfl⟩ := h
  obtain ⟨_, rfl⟩ := List.getElem?_eq_some_iff.1 hi
  simp

theorem eachRow_at {p : Phase} {d : Nat → Nat → Byte} {n f : Nat} {w : Send} (h : (eachRow p d n)[f]? = some w) :
    w.phase = p ∧ w.i = f / 8 ∧ w.r = f % 8 := by
  induction n with
  | zero => simp [eachRow] at h
  | succ n ih =>
    have hsucc : eachRow p d (n + 1) =
        eachRow p d n ++ (List.finRange 8).map fun r => ⟨p, n, r.val, .row r (d n r.val)⟩ := by
      simp [eachRow, List.range_succ]
    rw [hsucc] at h
    by_cases hf : f < 8 * n
    · rw [List.getElem?_append_left (by simpa using hf)] at h
      exact ih h
    · rw [List.getElem?_append_right (by simpa using hf), eachRow_length, List.getElem?_map, Option.map_eq_some_iff] at h
      obtain ⟨r, hr, rfl⟩ := h
      obtain ⟨h8, rfl⟩ := List.getElem?_eq_some_iff.1 hr
      simp only [List.length_finRange] at h8
      simp
      omega

theorem newSends_at {n f : Nat} {level : Byte} {w : Send} (x : LineWrite) (h : (newSends n level)[f]? = some w) :
    w.position .new x = newCut n f x := by
  rw [newSends] at h
  rw [newCut]
  by_cases h1 : f < n
  · rw [List.getElem?_append_left (by simp; omega), List.getElem?_append_left (by simp; omega),
      List.getElem?_append_left (by simpa using h1)] at h
    obtain ⟨hp, hi, hr⟩ := eachModule_at h
    rw [if_pos h1, Send.position, hp, hi, hr]
  · rw [if_neg h1]
    by_cases h2 : f < 2 * n
    · rw [List.getElem?_append_left (by simp; omega), List.getElem?_append_left (by simp; omega),
        List.getElem?_append_right (by simpa using h1)] at h
      obtain ⟨hp, hi, hr⟩ := eachModule_at h
      rw [if_pos h2, Send.position, hp, hi, hr, eachModule_length]
    · rw [if_neg h2]
      by_cases h3 : f < 10 * n
      · rw [List.getElem?_append_left (by simp; omega), List.getElem?_append_right (by simp; omega)] at h
        obtain ⟨hp, hi, hr⟩ := eachRow_at h
        rw [if_pos h3, Send.position, hp, hi, hr, List.length_append, eachModule_length, eachModule_length, Nat.two_mul]
      · rw [List.getElem?_append_right (by simp; omega)] at h
        obtain ⟨hp, hi, hr⟩ := eachModule_at h
        rw [if_neg h3, Send.position, hp, hi, hr, List.length_append, List.length_append, eachModule_length,
          eachModule_length, eachRow_length, show n + n + 8 * n = 10 * n by omega]

end Sys2Proof.Machine
end

