-- ==== Sys2Proof/Laws/Claim.lean ====
section
/-! SUPPORT. What opening the device, claiming a line and beginning an operation on the display can do, said once
(42_display_operations R160, R167); and what a script of answers makes PinOracle answer. -/

namespace Sys2Proof.Machine

/-! ### Scripts -/

/-- A script that begins with `k` answers `ok`. -/
theorem pinsOk_of_script {s : State} {k : Nat} {rest : List Bool} (h : s.pins.script = List.replicate k true ++ rest) :
    s.pinsOk k := by
  intro j hj
  simp [State.pinAnswer, Feed.peek, h, List.getElem?_append_left, hj]

/-- The answer of a script that fails question `k`. -/
theorem pinAnswer_of_script {s : State} {k : Nat} {b : Bool} {rest : List Bool}
    (h : s.pins.script = List.replicate k true ++ b :: rest) : s.pinAnswer k = b := by
  simp [State.pinAnswer, Feed.peek, h]

/-! ### Opening and claiming -/

theorem openDevice_ok {s : State} (h : s.pinAnswer 0 = true) : openDevice s = Run.ok s.askPin := by
  simp [openDevice, h]

theorem openDevice_fail {s : State} (h : s.pinAnswer 0 = false) : openDevice s = Run.raise .connection s.askPin := by
  simp [openDevice, h]

/-- The state after a line was claimed: it is owned and at CLAIM_LEVEL, and the event is in the trace. The observer's
module count does not matter for a claim. -/
def State.claimed (l : Line) (n : Nat) (s : State) : State :=
  { s with
    lines := s.lines.put l ⟨true, .low⟩
    pins := s.pins.skip 1
    tape := .claim l :: s.tape
    modules := s.modules.onEvent n (.claim l) }

@[simp] theorem State.claimed_pinAnswer (l : Line) (n : Nat) (s : State) (j : Nat) :
    (s.claimed l n).pinAnswer j = s.pinAnswer (j + 1) := State.askPin_pinAnswer s j

theorem claimLine_ok {l : Line} {s : State} (n : Nat) (h : s.pinAnswer 0 = true) :
    claimLine l s = Run.ok (s.claimed l n) := by
  simp only [claimLine, h, if_true]
  rfl

theorem claimLine_fail {l : Line} {s : State} (h : s.pinAnswer 0 = false) :
    claimLine l s = Run.raise .connection s.askPin.release := by
  simp [claimLine, h]

/-! ### Operations on the display -/

/-- On a live display that owns its lines, an operation is its parts. -/
theorem onDisplay_live {op : SeqOp} {body : State → Run} {s : State} {c : Cfg} (hd : s.disp = .live)
    (hc : s.cfg = some c) (hl : s.lines.allOwned = true) :
    onDisplay op body s = .next (conclude (State.answer .ok) (body (s.begin op))) := by
  simp [onDisplay, hd, linkFault, hc, hl, unlessFault]

/-- The preconditions of a wire command hold. -/
theorem positionFault_none {s : State} {c : Cfg} (hc : s.cfg = some c) (hl : s.lines.allOwned = true)
    (hi : s.seq.i < c.n) : positionFault s = none := by
  simp [positionFault, linkFault, hc, hl, State.moduleCount, hi]

/-! ### Lines -/

/-- Line writes change no ownership. -/
theorem Lines.follow_owned {es : List Event} (h : ∀ e ∈ es, ∃ l v, e = .set l v) (ls : Lines) :
    (ls.follow es).data.owned = ls.data.owned ∧ (ls.follow es).clk.owned = ls.clk.owned ∧
      (ls.follow es).cs.owned = ls.cs.owned := by
  induction es generalizing ls with
  | nil => exact ⟨rfl, rfl, rfl⟩
  | cons e es ih =>
    obtain ⟨l, v, rfl⟩ := h e (by simp)
    have := ih (fun e he => h e (by simp [he])) (ls.withLevel l (lineLevelOf v))
    cases l <;> exact this

/-- A line write, failed or not, changes no ownership. -/
theorem Lines.withLevel_owned (ls : Lines) (l : Line) (v : LineLevel) :
    (ls.withLevel l v).allOwned = ls.allOwned ∧ (ls.withLevel l v).noneOwned = ls.noneOwned := by
  cases l <;> exact ⟨rfl, rfl⟩

/-! ### Steps -/

/-- The next word is the one on the bench (log entry 2). -/
theorem fetch_bench {s : State} {q : Issued} (h : s.bench = some q) : fetch s = some (q, { s with bench := none }) := by
  simp [fetch, h]

/-- With an empty bench the next word is the next host word. -/
theorem fetch_inbox {s : State} {w : H32} {rest : List H32} (hb : s.bench = none) (h : s.inbox = w :: rest) :
    fetch s = some (.h32 w, { s with inbox := rest }) := by
  simp [fetch, hb, h]

/-- What fetching a word can do: it comes from the bench, or it is the next host word. -/
theorem fetch_cases (s : State) :
    (s.bench = none ∧ s.inbox = [] ∧ fetch s = none) ∨
    (∃ q, s.bench = some q ∧ fetch s = some (q, { s with bench := none })) ∨
    ∃ w rest, s.bench = none ∧ s.inbox = w :: rest ∧ fetch s = some (.h32 w, { s with inbox := rest }) := by
  rcases hb : s.bench with _ | q
  · rcases hi : s.inbox with _ | ⟨w, rest⟩
    · exact .inl ⟨rfl, rfl, by simp [fetch, hb, hi]⟩
    · exact .inr (.inr ⟨w, rest, rfl, rfl, by simp [fetch, hb, hi]⟩)
  · exact .inr (.inl ⟨q, rfl, fetch_bench hb⟩)

/-- A step that fetched a word: an illegal host word was refused, or the instruction of the word ran. -/
theorem step_of_fetch {s t u : State} {q : Issued} (hf : fetch s = some (q, u)) (h : step s = .next t) :
    (t = u.answer (.refused .illegalCommand) ∧ ∃ w e, q = .h32 w ∧ decodeH32 w = .error e) ∨
      ∃ i, decode q = .ok i ∧ exec i u = .next t := by
  simp only [step, hf] at h
  split at h
  · rename_i i hi
    exact .inr ⟨i, hi, h⟩
  · rename_i e he
    cases q with
    | h32 w =>
      simp only [rejectWord, Host.Outcome.next.injEq] at h
      exact .inl ⟨h.symm, w, e, rfl, he⟩
    | w16 _ => simp [rejectWord] at h
    | s24 _ => simp [rejectWord] at h
    | r48 _ => simp [rejectWord] at h

/-- How a step comes to a next state: there was nothing to run, an illegal host word was refused, or an instruction ran. -/
theorem step_next_cases {s t : State} (h : step s = .next t) :
    t = s ∨ ∃ q u, fetch s = some (q, u) ∧
      (t = u.answer (.refused .illegalCommand) ∨ ∃ i, decode q = .ok i ∧ exec i u = .next t) := by
  cases hf : fetch s with
  | none =>
    simp only [step, hf, Host.Outcome.next.injEq] at h
    exact .inl h.symm
  | some p =>
    obtain ⟨q, u⟩ := p
    exact .inr ⟨q, u, rfl, (step_of_fetch hf h).imp And.left id⟩

end Sys2Proof.Machine
end

