-- ==== Sys2Proof/Laws/Fields.lean ====
section
/-! SUPPORT. The fields of the encoded words, bit by bit: taking a word apart and putting it together are inverse to each
other (30_encoding R81, R86, R91). -/

namespace Sys2Proof

theorem h32Word_getLsbD (opc a b : Byte) (i : Nat) :
    (h32Word opc a b).getLsbD i =
      if i < 8 then false
      else if i < 16 then b.getLsbD (i - 8) else if i < 24 then a.getLsbD (i - 16) else opc.getLsbD (i - 24) := by
  show BitVec.getLsbD (w := 8 + 8 + 8 + 8) (opc ++ a ++ b ++ 0x00#8) i = _
  simp only [BitVec.getLsbD_append, Nat.sub_sub]
  repeat' split
  all_goals first | rfl | omega | simp

theorem w16Word_getLsbD (sel dat : Byte) (i : Nat) :
    (w16Word sel dat).getLsbD i = if i < 8 then dat.getLsbD i else sel.getLsbD (i - 8) := by
  show BitVec.getLsbD (w := 8 + 8) (sel ++ dat) i = _
  rw [BitVec.getLsbD_append]

theorem wordOfReply_getLsbD (r : Reply) (i : Nat) :
    (wordOfReply r).getLsbD i =
      if i < 8 then r.b5.getLsbD i
      else if i < 16 then r.b4.getLsbD (i - 8)
      else if i < 24 then r.b3.getLsbD (i - 16)
      else if i < 32 then r.b2.getLsbD (i - 24)
      else if i < 40 then r.b1.getLsbD (i - 32) else r.b0.getLsbD (i - 40) := by
  show BitVec.getLsbD (w := 8 + 8 + 8 + 8 + 8 + 8) (r.b0 ++ r.b1 ++ r.b2 ++ r.b3 ++ r.b4 ++ r.b5) i = _
  simp only [BitVec.getLsbD_append, Nat.sub_sub]
  repeat' split
  all_goals first | rfl | omega

/-- The fields of a host word. -/
theorem h32Word_fields (opc a b : Byte) :
    h32Opc (h32Word opc a b) = opc ∧ h32A (h32Word opc a b) = a ∧ h32B (h32Word opc a b) = b ∧
      h32Z (h32Word opc a b) = 0#8 := by
  refine ⟨?_, ?_, ?_, ?_⟩ <;>
  · apply BitVec.eq_of_getLsbD_eq
    intro i hi
    simp only [h32Opc, h32A, h32B, h32Z, BitVec.getLsbD_extractLsb', h32Word_getLsbD, hi, decide_true, Bool.true_and]
    repeat' split
    all_goals first | omega | (congr 1; omega) | simp

/-- The fields of a wire word. -/
theorem w16Word_fields (sel dat : Byte) : w16Sel (w16Word sel dat) = sel ∧ w16Dat (w16Word sel dat) = dat := by
  refine ⟨?_, ?_⟩ <;>
  · apply BitVec.eq_of_getLsbD_eq
    intro i hi
    simp only [w16Sel, w16Dat, BitVec.getLsbD_extractLsb', w16Word_getLsbD, hi, decide_true, Bool.true_and]
    repeat' split
    all_goals first | omega | (congr 1; omega)

/-- A host word with `z = 0` is put together from its fields. -/
theorem h32Word_of_fields {w : H32} (h : h32Z w = 0#8) : h32Word (h32Opc w) (h32A w) (h32B w) = w := by
  have hz : ∀ j, j < 8 → w.getLsbD j = false := fun j hj => by
    have := congrArg (·.getLsbD j) h
    simpa [h32Z, hj] using this
  apply BitVec.eq_of_getLsbD_eq
  intro i hi
  simp only [h32Opc, h32A, h32B, BitVec.getLsbD_extractLsb', h32Word_getLsbD]
  repeat' split
  · exact (hz i ‹_›).symm
  all_goals (rw [decide_eq_true (by omega), Bool.true_and]; congr 1; omega)

/-- A wire word is put together from its fields. -/
theorem w16Word_of_fields (w : W16) : w16Word (w16Sel w) (w16Dat w) = w := by
  apply BitVec.eq_of_getLsbD_eq
  intro i hi
  simp only [w16Sel, w16Dat, BitVec.getLsbD_extractLsb', w16Word_getLsbD]
  repeat' split
  all_goals (rw [decide_eq_true (by omega), Bool.true_and]; congr 1; omega)

/-- The bytes of a reply's word. -/
theorem replyOfWord_wordOfReply (r : Reply) : replyOfWord (wordOfReply r) = r := by
  rcases r with ⟨b0, b1, b2, b3, b4, b5⟩
  simp only [replyOfWord, Reply.mk.injEq]
  refine ⟨?_, ?_, ?_, ?_, ?_, ?_⟩ <;>
  · apply BitVec.eq_of_getLsbD_eq
    intro i hi
    simp only [BitVec.getLsbD_extractLsb', wordOfReply_getLsbD, hi, decide_true, Bool.true_and]
    repeat' split
    all_goals first | omega | (congr 1; omega)

/-- A reply's word is put together from its bytes. -/
theorem wordOfReply_replyOfWord (w : R48) : wordOfReply (replyOfWord w) = w := by
  apply BitVec.eq_of_getLsbD_eq
  intro i hi
  simp only [replyOfWord, BitVec.getLsbD_extractLsb', wordOfReply_getLsbD]
  repeat' split
  all_goals (rw [decide_eq_true (by omega), Bool.true_and]; congr 1; omega)

/-- The calibration bit of a reply's word is bit 3 of byte 0 (30_encoding R96). -/
theorem wordOfReply_calibrated (r : Reply) : (wordOfReply r).getLsbD 43 = r.b0.getLsbD 3 := by
  rw [wordOfReply_getLsbD]
  simp

/-- The wire decoder in the numbers of 30_encoding R87. -/
theorem decodeW16_numbers (w : W16) :
    decodeW16 w =
      (let dat := w16Dat w
      if w16Sel w = 0x00#8 then
        if dat = 0x00#8 then .ok .wNoop else .error .notAWireCommand
      else if w16Sel w = 0x01#8 then .ok (.wRow0 dat)
      else if w16Sel w = 0x02#8 then .ok (.wRow1 dat)
      else if w16Sel w = 0x03#8 then .ok (.wRow2 dat)
      else if w16Sel w = 0x04#8 then .ok (.wRow3 dat)
      else if w16Sel w = 0x05#8 then .ok (.wRow4 dat)
      else if w16Sel w = 0x06#8 then .ok (.wRow5 dat)
      else if w16Sel w = 0x07#8 then .ok (.wRow6 dat)
      else if w16Sel w = 0x08#8 then .ok (.wRow7 dat)
      else if w16Sel w = 0x09#8 then
        if dat = 0x00#8 then .ok .wDecodeRaw else .error .notAWireCommand
      else if w16Sel w = 0x0A#8 then .ok (.wIntensity dat)
      else if w16Sel w = 0x0C#8 then
        if dat = 0x01#8 then .ok .wPowerOn else .error .notAWireCommand
      else .error .notAWireCommand) := rfl

/-- A count that a word carries is its own field (30_encoding R83). -/
theorem countField_toNat {count : Nat} (h : count < 256) : (countField count).toNat = count := by
  rw [countField, BitVec.toNat_ofNat, Nat.min_eq_left (by omega), Nat.mod_eq_of_lt h]

theorem countField_of_byte (a : Byte) : countField a.toNat = a :=
  BitVec.eq_of_toNat_eq (countField_toNat a.isLt)

/-- The field of a count above 16 is above 16 (42_display_operations R161). -/
theorem countField_above {count : Nat} (h : 16 < count) : 16 < (countField count).toNat := by
  rw [countField, BitVec.toNat_ofNat]
  omega

end Sys2Proof
end

