-- ==== Sys2Proof/Laws/Float.lean ====
section
/-! SUPPORT. Binary32 arithmetic (00_scope R17): a value that fits 24 significant bits is not rounded, and the bit pattern
of such a value in the normal range is an ordinary pattern that stands for it. -/

namespace Sys2Proof.Machine

theorem bitLength_le {m k : Nat} (h : m < 2 ^ k) : bitLength m ≤ k := by
  rw [bitLength]
  split
  · exact Nat.zero_le k
  · rename_i hm
    exact (Nat.log2_lt hm).2 h

theorem le_bitLength {m k : Nat} (h : 2 ^ k ≤ m) : k + 1 ≤ bitLength m := by
  have hm : m ≠ 0 := fun h0 => by
    have := Nat.two_pow_pos k
    omega
  rw [bitLength, if_neg hm]
  exact Nat.succ_le_succ ((Nat.le_log2 hm).2 h)

/-- The number of bits, from the two powers of two around the number. -/
theorem bitLength_eq {m k : Nat} (hlo : 2 ^ k ≤ m) (hhi : m < 2 ^ (k + 1)) : bitLength m = k + 1 :=
  Nat.le_antisymm (bitLength_le hhi) (le_bitLength hlo)

/-- The number of bits bounds the number on both sides. -/
theorem bitLength_bounds {m : Nat} (hm : m ≠ 0) :
    0 < bitLength m ∧ 2 ^ (bitLength m - 1) ≤ m ∧ m < 2 ^ bitLength m := by
  rw [bitLength, if_neg hm]
  exact ⟨Nat.succ_pos _, Nat.log2_self_le hm, Nat.lt_log2_self⟩

/-- A value of at most 24 significant bits is not rounded. -/
theorem fl_exact {d : Dyad} (hm : d.num.natAbs < 2 ^ 24) (he : -149 ≤ d.exp) : fl d = d := by
  have := bitLength_le hm
  rw [fl, if_pos]
  rw [lastPlace]
  omega

/-- A number divisible by `2 ^ k` is divided exactly. -/
theorem rneShift_exact {m k : Nat} (h : 2 ^ k ∣ m) : rneShift m k = m / 2 ^ k := by
  simp [rneShift, Nat.mod_eq_zero_of_dvd h]

/-- One bit is rounded: a half goes to the even number. -/
theorem rneShift_half (n k : Nat) : rneShift (2 ^ k * n) (k + 1) = halfToEven n := by
  have hp : 0 < 2 ^ k := Nat.two_pow_pos k
  simp only [rneShift, halfToEven, pow_succ 2 k, Nat.mul_div_mul_left _ _ hp, Nat.mul_mod_mul_left]
  rcases Nat.mod_two_eq_zero_or_one n with h | h
  · simp [h]
  · rw [h, if_neg (by omega), if_neg (by omega)]
    rcases Nat.mod_two_eq_zero_or_one (n / 2) with h | h <;> simp [h]

/-- A value of at most 24 significant bits above `t` zero bits is not changed by rounding. -/
theorem fl_of_dvd {d : Dyad} {m t : Nat} (hd : d.num.natAbs = m * 2 ^ t) (hm : m < 2 ^ 24) (he : -149 ≤ d.exp) :
    ∃ k : Nat, k ≤ t ∧ (fl d).exp = d.exp + k ∧ (fl d).num * 2 ^ k = d.num ∧ (fl d).num.natAbs < 2 ^ 24 := by
  by_cases h0 : d.num.natAbs < 2 ^ 24
  · exact ⟨0, Nat.zero_le t, by simp [fl_exact h0 he], by simp [fl_exact h0 he], by rwa [fl_exact h0 he]⟩
  · have hb := le_bitLength (k := 24) (Nat.not_lt.1 h0)
    have hlt : d.num.natAbs < 2 ^ (24 + t) := by
      rw [hd, pow_add]
      exact Nat.mul_lt_mul_of_pos_right hm (Nat.two_pow_pos t)
    have hle := bitLength_le hlt
    obtain ⟨k, hk⟩ : ∃ k, bitLength d.num.natAbs = 24 + k := ⟨bitLength d.num.natAbs - 24, by omega⟩
    have hdvd : 2 ^ k ∣ d.num.natAbs := by
      rw [hd]
      exact Dvd.dvd.mul_left (Nat.pow_dvd_pow 2 (by omega)) _
    have hl : lastPlace d = d.exp + k := by
      simp only [lastPlace, hk]
      omega
    have hfl : fl d = ⟨d.num.sign * (d.num.natAbs / 2 ^ k : Nat), d.exp + k⟩ := by
      rw [fl, hl, if_neg (by omega), show (d.exp + (k : Int) - d.exp).toNat = k by omega, rneShift_exact hdvd]
    refine ⟨k, by omega, by rw [hfl], ?_, ?_⟩
    · have hmul : ((d.num.natAbs / 2 ^ k : Nat) : Int) * 2 ^ k = d.num.natAbs := by
        exact_mod_cast Nat.div_mul_cancel hdvd
      rw [hfl, mul_assoc, hmul, Int.sign_mul_natAbs]
    · rw [hfl, Int.natAbs_mul, Int.natAbs_natCast]
      have h1 : d.num.sign.natAbs ≤ 1 := by
        rcases Int.sign_trichotomy d.num with h | h | h <;> simp [h]
      have h2 : d.num.natAbs / 2 ^ k < 2 ^ 24 := by
        rw [Nat.div_lt_iff_lt_mul (Nat.two_pow_pos k), ← pow_add, ← hk]
        exact (bitLength_bounds (by omega)).2.2
      calc _ ≤ 1 * (d.num.natAbs / 2 ^ k) := Nat.mul_le_mul_right _ h1
        _ < 2 ^ 24 := by rwa [one_mul]

/-- The fields of a pattern written as sign, exponent field and fraction. -/
theorem f32_fields {sign e f : Nat} (hs : sign = 0 ∨ sign = 2 ^ 31) (he : e < 256) (hf : f < 2 ^ 23) :
    ((BitVec.ofNat 32 (sign + e * 2 ^ 23 + f)).extractLsb' 23 8).toNat = e ∧
    ((BitVec.ofNat 32 (sign + e * 2 ^ 23 + f)).extractLsb' 0 23).toNat = f ∧
    ((BitVec.ofNat 32 (sign + e * 2 ^ 23 + f)).getLsbD 31 = true ↔ sign = 2 ^ 31) := by
  have hlt : sign + e * 2 ^ 23 + f < 2 ^ 32 := by omega
  refine ⟨?_, ?_, ?_⟩
  · rw [BitVec.extractLsb'_toNat, BitVec.toNat_ofNat, Nat.mod_eq_of_lt hlt, Nat.shiftRight_eq_div_pow]
    omega
  · rw [BitVec.extractLsb'_toNat, BitVec.toNat_ofNat, Nat.mod_eq_of_lt hlt, Nat.shiftRight_eq_div_pow]
    omega
  · rw [← BitVec.testBit_toNat, BitVec.toNat_ofNat, Nat.mod_eq_of_lt hlt, Nat.testBit_eq_decide_div_mod_eq]
    simp only [decide_eq_true_eq]
    omega

/-- The pattern of a value of at most 24 significant bits in the normal range stands for that value. -/
theorem bits_of_normal {d : Dyad} (h0 : d.num ≠ 0) (hm : d.num.natAbs < 2 ^ 24)
    (hlo : -125 ≤ d.exp + bitLength d.num.natAbs) (hhi : d.exp + bitLength d.num.natAbs ≤ 128) :
    f32Value d.bits = (d.num : Rat) * (2 : Rat) ^ d.exp ∧ f32Ordinary d.bits := by
  rcases d with ⟨num, exp⟩
  simp only at h0 hm hlo hhi
  have hne : num.natAbs ≠ 0 := by omega
  obtain ⟨hb0, hb1, hb2⟩ := bitLength_bounds hne
  have hb24 := bitLength_le hm
  generalize hb : bitLength num.natAbs = b at *
  have hlast : lastPlace ⟨num, exp⟩ = exp + b - 24 := by
    simp only [lastPlace, hb]
    omega
  obtain ⟨k, hk⟩ : ∃ k, k + b = 24 := ⟨24 - b, by omega⟩
  have hshift : num.natAbs <<< (exp - (exp + b - 24)).toNat = num.natAbs * 2 ^ k := by
    rw [Nat.shiftLeft_eq, show (exp - (exp + b - 24)).toNat = k by omega]
  have hlow : 2 ^ 23 ≤ num.natAbs * 2 ^ k := by
    calc 2 ^ 23 = 2 ^ (b - 1) * 2 ^ k := by rw [← pow_add]; congr 1; omega
      _ ≤ _ := Nat.mul_le_mul_right _ hb1
  have hhigh : num.natAbs * 2 ^ k < 2 ^ 24 := by
    calc num.natAbs * 2 ^ k < 2 ^ b * 2 ^ k := Nat.mul_lt_mul_of_pos_right hb2 (Nat.two_pow_pos k)
      _ = 2 ^ 24 := by rw [← pow_add]; congr 1; omega
  obtain ⟨f, hf⟩ : ∃ f, num.natAbs * 2 ^ k = 2 ^ 23 + f := ⟨_, (Nat.add_sub_cancel' hlow).symm⟩
  obtain ⟨e, he⟩ : ∃ e : Nat, exp + b - 24 + 149 = e := ⟨(exp + b - 24 + 149).toNat, by omega⟩
  have hsign : ∃ sign : Nat, (sign = 0 ∨ sign = 2 ^ 31) ∧ (sign = 2 ^ 31 ↔ num < 0) ∧
      (Dyad.mk num exp).bits = BitVec.ofNat 32 (sign + (e + 1) * 2 ^ 23 + f) := by
    refine ⟨if num < 0 then 2 ^ 31 else 0, by split <;> simp, by split <;> simp_all, ?_⟩
    simp only [Dyad.bits, hb, hlast]
    rw [if_neg hne, if_neg (show ¬128 < exp + (b : Int) by omega), if_pos (show exp + (b : Int) - 24 ≤ exp by omega), hshift, hf,
      he, Int.toNat_natCast, Nat.shiftLeft_eq]
    refine congrArg (BitVec.ofNat 32) ?_
    rw [Nat.add_mul]
    omega
  obtain ⟨sign, hs, hsn, hbits⟩ := hsign
  obtain ⟨h1, h2, h3⟩ := f32_fields hs (e := e + 1) (f := f) (by omega) (by omega)
  rw [hbits]
  refine ⟨?_, .inr (by rw [h1]; omega)⟩
  simp only [f32Value, h1, h2, h3, hsn]
  rw [if_neg (show ¬e + 1 = 0 by omega), ← hf]
  have hexp : ((max (e + 1) 1 : Int) - 150) = exp - k := by omega
  have hpow : (2 : Rat) ^ k * (2 : Rat) ^ (exp - (k : Int)) = (2 : Rat) ^ exp := by
    rw [← zpow_natCast, ← zpow_add₀ (by norm_num)]
    congr 1
    omega
  push_cast [hexp]
  rw [mul_assoc, mul_assoc, hpow, ← mul_assoc]
  congr 1
  have habs : (num.natAbs : Rat) = |(num : Rat)| := by
    rw [← Int.cast_abs, ← Int.natCast_natAbs, Int.cast_natCast]
  rw [habs]
  split
  · rename_i hneg
    rw [abs_of_neg (by exact_mod_cast hneg)]
    ring
  · rename_i hpos
    rw [abs_of_nonneg (by exact_mod_cast Int.not_lt.1 hpos), one_mul]

end Sys2Proof.Machine
end

