-- ==== Sys2Proof/Laws/Observer.lean ====
section
/-! SUPPORT. What one whole frame does to the reference receiver (41_display_wire_commands R142 to R144): the chain holds
the frame's bits, and at the rising chip-select every module takes its two bytes. -/

namespace Sys2Proof.Machine

/-- The bits of a byte, least significant first: as a chain holds them, the last one shifted in at the near end. -/
def byteBits (v : Byte) : List (Option Bool) := (List.range 8).map fun k => some (v.getLsbD k)

@[simp] theorem byteBits_length (v : Byte) : (byteBits v).length = 8 := by simp [byteBits]

/-- The bits of a list of bytes sent one after another. -/
def sentBits (vs : List Byte) : List (Option Bool) := vs.reverse.flatMap byteBits

@[simp] theorem sentBits_length (vs : List Byte) : (sentBits vs).length = 8 * vs.length := by
  induction vs with
  | nil => rfl
  | cons v vs ih =>
    simp only [sentBits, List.reverse_cons, List.flatMap_append, List.length_append] at ih ⊢
    rw [ih]
    simp; omega

theorem take_append_take {α : Type} (k : Nat) (a l : List α) : (a ++ l.take k).take k = (a ++ l).take k := by
  rw [List.take_append, List.take_append, List.take_take, Nat.min_eq_left (Nat.sub_le k a.length)]

theorem dataBit_bitLevel (b : Bool) : dataBit (lineLevelOf (bitLevel b)) = some b := by cases b <;> rfl

@[simp] theorem lineLevelOf_low : lineLevelOf .low = .low := rfl

@[simp] theorem lineLevelOf_high : lineLevelOf .high = .high := rfl

/-- The events of a byte. -/
def byteEvents (v : Byte) : List Event := (byteWrites 0 v).map LineWrite.event

theorem byteWrites_events (b : Nat) (v : Byte) : (byteWrites b v).map LineWrite.event = byteEvents v := rfl

/-- A doubt after `m` more certain bits (70 R335). -/
def agedBy (n : Nat) : Nat → Option Nat → Option Nat
  | 0, d => d
  | m + 1, d => agedBy n m (aged n d)

theorem agedBy_none (n m : Nat) : agedBy n m none = none := by
  induction m with
  | zero => rfl
  | succ m ih => exact ih

theorem agedBy_agedBy (n a b : Nat) (d : Option Nat) : agedBy n b (agedBy n a d) = agedBy n (a + b) d := by
  induction a generalizing d with
  | zero => rw [agedBy, Nat.zero_add]
  | succ a ih => rw [agedBy, ih, Nat.succ_add, agedBy]

/-- As many certain bits as the chain holds push every doubt out (70 R335). -/
theorem agedBy_eq_none {n m k : Nat} (h : 16 * n ≤ k + m) (hm : 0 < m) : agedBy n m (some k) = none := by
  induction m generalizing k with
  | zero => omega
  | succ m ih =>
    rw [agedBy, aged]
    split
    · exact ih (by omega) (by omega)
    · exact agedBy_none n m

theorem agedBy_frame {n m : Nat} (h : 16 * n ≤ m) (hm : 0 < m) (d : Option Nat) : agedBy n m d = none := by
  cases d with
  | none => exact agedBy_none n m
  | some k => exact agedBy_eq_none (by omega) hm

/-- The three events of one bit, where the observer follows: one more bit in the chain, CLK Low again. -/
theorem watch_bit {n : Nat} {o : Observer} (hs : o.stuck = false) (hc : o.clk = .low) (b : Nat) (v : Byte) (k : Nat) :
    o.watch n ((bitWrites b v k).map LineWrite.event) =
      { o with
        data := lineLevelOf (bitLevel (v.getLsbD k))
        chain := (some (v.getLsbD k) :: o.chain).take (16 * n)
        doubt := aged n o.doubt } := by
  rcases o with ⟨d, c, cs, chain, doubt, mods, stuck⟩
  simp only at hs hc
  subst hs hc
  simp [bitWrites, LineWrite.event, Observer.onEvent, Observer.onSet, Observer.withLevel, Observer.clkHigh, pushBit,
    dataBit_bitLevel]

/-- The events of some bits of a byte, where the observer follows. -/
theorem watch_bits {n : Nat} {o : Observer} (hs : o.stuck = false) (hc : o.clk = .low) (b : Nat) (v : Byte)
    (ks : List Nat) (hk : ks ≠ []) :
    o.watch n ((ks.flatMap (bitWrites b v)).map LineWrite.event) =
      { o with
        data := lineLevelOf (bitLevel (v.getLsbD (ks.getLast hk)))
        chain := ((ks.reverse.map fun k => some (v.getLsbD k)) ++ o.chain).take (16 * n)
        doubt := agedBy n ks.length o.doubt } := by
  induction ks generalizing o with
  | nil => exact absurd rfl hk
  | cons k ks ih =>
    rw [List.flatMap_cons, List.map_append, Observer.watch_append, watch_bit hs hc]
    cases ks with
    | nil => simp [agedBy]
    | cons k' ks =>
      rw [ih (by exact hs) (by exact hc) (by simp)]
      rw [take_append_take]
      simp [agedBy]

/-- The events of one byte, where the observer follows. -/
theorem watch_byte {n : Nat} {o : Observer} (hs : o.stuck = false) (hc : o.clk = .low) (v : Byte) :
    o.watch n (byteEvents v) =
      { o with
        data := lineLevelOf (bitLevel (v.getLsbD 0))
        chain := (byteBits v ++ o.chain).take (16 * n)
        doubt := agedBy n 8 o.doubt } :=
  watch_bits hs hc 0 v [7, 6, 5, 4, 3, 2, 1, 0] (by simp)

theorem sentBits_cons (v : Byte) (vs : List Byte) : sentBits (v :: vs) = sentBits vs ++ byteBits v := by
  simp [sentBits]

/-- The events of some bytes, where the observer follows. -/
theorem watch_bytes {n : Nat} {o : Observer} (hs : o.stuck = false) (hc : o.clk = .low) (b : Nat) (vs : List Byte) :
    ∃ d, o.watch n ((bytesWrites b vs).map LineWrite.event) =
      { o with
        data := d
        chain := if vs = [] then o.chain else (sentBits vs ++ o.chain).take (16 * n)
        doubt := agedBy n (8 * vs.length) o.doubt } := by
  induction vs generalizing o b with
  | nil => exact ⟨o.data, by simp [bytesWrites, agedBy]⟩
  | cons v vs ih =>
    obtain ⟨d, h⟩ := ih (o := { o with
      data := lineLevelOf (bitLevel (v.getLsbD 0)), chain := (byteBits v ++ o.chain).take (16 * n),
      doubt := agedBy n 8 o.doubt }) (by exact hs) (by exact hc) (b + 1)
    refine ⟨d, ?_⟩
    rw [bytesWrites, List.map_append, byteWrites_events, Observer.watch_append, watch_byte hs hc, h, agedBy_agedBy,
      List.length_cons, Nat.mul_succ, Nat.add_comm 8]
    by_cases hv : vs = []
    · simp [hv, sentBits]
    · simp [hv, sentBits_cons, take_append_take]

/-- One whole frame of `2·n` bytes, where the observer follows: every module takes its word from the frame's bits, whatever
the chain held before and whatever was in doubt (70 R335). -/
theorem watch_frame {n : Nat} {o : Observer} {buf : List Byte} {ms : List MatrixModule} (hs : o.stuck = false)
    (hc : o.clk = .low) (hn : 0 < n) (hb : buf.length = 2 * n)
    (hm : latchFrom n false (sentBits buf) 0 o.mods = some ms) :
    ∃ d, o.watch n (frameEvents buf) =
      { o with data := d, cs := .high, chain := sentBits buf, mods := ms, doubt := none } := by
  have hne : buf ≠ [] := by
    rintro rfl
    simp at hb
    omega
  have hev : frameEvents buf = [.set .cs .low] ++ ((bytesWrites 0 buf).map LineWrite.event ++ [.set .cs .high]) := by
    simp [frameEvents, frameWrites, LineWrite.event]
  obtain ⟨d, h⟩ := watch_bytes (n := n) (o := { o with cs := .low }) (by exact hs) (by exact hc) 0 buf
  have h0 : o.watch n [.set .cs .low] = { o with cs := .low } := by
    simp [Observer.onEvent, Observer.onSet, Observer.withLevel, hs]
  have hlen : (sentBits buf ++ o.chain).take (16 * n) = sentBits buf := by
    have : 16 * n = (sentBits buf).length := by rw [sentBits_length, hb]; omega
    rw [this, List.take_left']
    rfl
  refine ⟨d, ?_⟩
  rw [agedBy_frame (by omega) (by omega)] at h
  rw [hev, Observer.watch_append, Observer.watch_append, h0, h]
  simp [Observer.onEvent, Observer.onSet, Observer.withLevel, Observer.csHigh, Observer.latch, hs, hne, hlen, hm]

/-! ### The word a module takes -/

theorem getD_sentBits (vs : List Byte) (k j : Nat) (hk : k < vs.length) (hj : j < 8) :
    (sentBits vs).getD (8 * (vs.length - 1 - k) + j) none = some ((vs.getD k 0).getLsbD j) := by
  induction vs generalizing k with
  | nil => simp at hk
  | cons v vs ih =>
    rw [sentBits_cons]
    cases k with
    | zero =>
      rw [List.getD_append_right _ _ _ _ (by simp)]
      simp only [sentBits_length, List.length_cons, Nat.sub_zero, Nat.add_sub_cancel]
      rw [Nat.add_sub_cancel_left]
      simp [byteBits, List.getD_eq_getElem?_getD, hj]
    | succ k =>
      simp only [List.length_cons] at hk
      rw [List.getD_append _ _ _ _ (by simp; omega)]
      have := ih k (by omega)
      simp only [List.length_cons, List.getD_cons_succ] at this ⊢
      rw [← this]
      congr 2
      omega

/-- The word of position `i` in a frame: its two bytes (40_serial_port R115, 41 R143). -/
theorem wordBits_sentBits {n i : Nat} {buf : List Byte} (hb : buf.length = 2 * n) (hi : i < n) :
    wordBits n i (sentBits buf) = byteBits (buf.getD (2 * i + 1) 0) ++ byteBits (buf.getD (2 * i) 0) := by
  apply List.ext_getElem
  · simp [wordBits]
  · intro j h1 h2
    simp only [wordBits, List.length_map, List.length_range] at h1
    simp only [wordBits, List.getElem_map, List.getElem_range]
    by_cases hj : j < 8
    · rw [List.getElem_append_left (by simpa using hj)]
      have := getD_sentBits buf (2 * i + 1) j (by omega) hj
      rw [hb] at this
      rw [show 16 * (n - 1 - i) + j = 8 * (2 * n - 1 - (2 * i + 1)) + j by omega, this]
      simp [byteBits]
    · rw [List.getElem_append_right (by simpa using Nat.le_of_not_lt hj)]
      have := getD_sentBits buf (2 * i) (j - 8) (by omega) (by omega)
      rw [hb] at this
      rw [show 16 * (n - 1 - i) + j = 8 * (2 * n - 1 - 2 * i) + (j - 8) by omega, this]
      simp [byteBits]

theorem knownNat_byteBits (v : Byte) : knownNat (byteBits v) = some v.toNat := by
  revert v
  decide +kernel

theorem knownNat_lowNibble (v : Byte) : knownNat ((byteBits v).take 4) = some (v.extractLsb' 0 4).toNat := by
  revert v
  decide +kernel

/-- What a module does with a whole word whose address the block can send (41 R144). -/
def MatrixModule.takeWord (sel dat : Byte) (m : MatrixModule) : MatrixModule :=
  let adr := (sel.extractLsb' 0 4).toNat
  if adr = 0 then m
  else if adr ≤ 8 then { m with rows := m.rows.set (adr - 1) (some dat) }
  else if adr = 9 then { m with decode := some dat }
  else if adr = 10 then { m with intensity := some (dat.extractLsb' 0 4) }
  else { m with power := some (dat.getLsbD 0) }

/-- A word the block can send: a register address of 30_encoding R87, and no power off. -/
def sendable (sel dat : Byte) : Prop :=
  (sel.extractLsb' 0 4).toNat ≤ 10 ∨ (sel.extractLsb' 0 4).toNat = 12 ∧ dat.getLsbD 0 = true

/-- A word whose sixteen bits are specified (41 R144). -/
theorem applyWord_bytes {sel dat : Byte} (m : MatrixModule) (h : sendable sel dat) :
    applyWord (byteBits dat ++ byteBits sel) m = some (m.takeWord sel dat) := by
  have h8 : (byteBits dat ++ byteBits sel).take 8 = byteBits dat := List.take_left' (byteBits_length dat)
  have h4 : (byteBits dat ++ byteBits sel).take 4 = (byteBits dat).take 4 := by
    rw [List.take_append_of_le_length (by simp)]
  have hd : (byteBits dat ++ byteBits sel).drop 8 = byteBits sel := List.drop_left' (byteBits_length dat)
  have h0 : (byteBits dat ++ byteBits sel).getD 0 none = some (dat.getLsbD 0) := by simp [byteBits, List.range_succ]
  have hnoop : Config.regAddr Config.opNoop = 0 := rfl
  have hrow : Config.regAddr Config.opRow0 = 1 := rfl
  have hdec : Config.regAddr Config.opDecode = 9 := rfl
  have hint : Config.regAddr Config.opIntensity = 10 := rfl
  have hpow : Config.regAddr Config.opPower = 12 := rfl
  simp only [applyWord, h8, h4, hd, knownNat_byteBits, knownNat_lowNibble, MatrixModule.takeWord, h0, Option.map_some,
    BitVec.ofNat_toNat, BitVec.setWidth_eq, hnoop, hrow, hdec, hint, hpow, Config.rows]
  rcases h with h | ⟨h, hp⟩
  · repeat' split
    all_goals first | rfl | omega
  · rw [h, hp]
    rfl

/-- Latching where every module's word is known: each module of the chain takes its word (41 R143). -/
theorem latchFrom_of_words {n : Nat} {chain : List (Option Bool)} {f : Nat → MatrixModule → MatrixModule}
    (hf : ∀ k, k < n → ∀ m, applyWord (wordBits n k chain) m = some (f k m)) (hid : ∀ k m, n ≤ k → f k m = m) (i : Nat)
    (ms : List MatrixModule) : latchFrom n false chain i ms = some (ms.mapIdx fun k m => f (i + k) m) := by
  induction ms generalizing i with
  | nil => rfl
  | cons m ms ih =>
    rw [latchFrom]
    split
    · rename_i h
      rw [takeAt, if_neg Bool.false_ne_true, hf i h, ih]
      simp only [List.mapIdx_cons, Nat.add_zero, Nat.add_assoc, Nat.add_comm 1]
    · rename_i h
      have : (m :: ms).mapIdx (fun k m => f (i + k) m) = m :: ms := by
        apply List.ext_getElem
        · simp
        · intro j h1 h2
          rw [List.getElem_mapIdx, hid _ _ (by omega)]
      rw [this]

end Sys2Proof.Machine
end

