-- ==== Sys2Proof/Laws/PerInstr.lean ====
section
/-! SUPPORT. Statements made per instruction: the word of a well-formed instruction is of the width of its row of the
opcode table and matches the row's mask and pattern (30_encoding R96). -/

namespace Sys2Proof.Laws

/-- The encoding of a well-formed instruction is a word of its row of the opcode table. -/
def TableMatch.Statement (i : Instr) : Prop :=
  wellFormed i = true →
    (encode i).width = (tableRow i).bits ∧ (encode i).toNat &&& (tableRow i).mask = (tableRow i).pattern

/-- A word with its bits masked, as a bit vector. -/
theorem and_toNat {w : Nat} (x y : BitVec w) : x.toNat &&& y.toNat = (x &&& y).toNat := (BitVec.toNat_and x y).symm

theorem mask_h32_new (a b : Byte) : h32Word 0x01#8 a b &&& 0xFF0000FF#32 = 0x01000000#32 := by
  apply BitVec.eq_of_getLsbD_eq
  intro i hi
  rw [BitVec.getLsbD_and, h32Word_getLsbD]
  interval_cases i <;> simp

theorem mask_h32_brightness (a : Byte) : h32Word 0x02#8 a 0x00#8 &&& 0xFF00FFFF#32 = 0x02000000#32 := by
  apply BitVec.eq_of_getLsbD_eq
  intro i hi
  rw [BitVec.getLsbD_and, h32Word_getLsbD]
  interval_cases i <;> simp

theorem mask_w16 (sel dat : Byte) : w16Word sel dat &&& 0xFF00#16 = w16Word sel 0x00#8 := by
  apply BitVec.eq_of_getLsbD_eq
  intro i hi
  rw [BitVec.getLsbD_and, w16Word_getLsbD, w16Word_getLsbD]
  interval_cases i <;> simp

theorem mask_r48 {r : Reply} {c : Bool} (h : r.b0.getLsbD 3 = c) :
    wordOfReply r &&& 0x080000000000#48 = if c then 0x080000000000#48 else 0x000000000000#48 := by
  apply BitVec.eq_of_getLsbD_eq
  intro i hi
  rw [BitVec.getLsbD_and, wordOfReply_getLsbD]
  by_cases h43 : i = 43
  · subst h43
    rw [show (43 : Nat) - 40 = 3 from rfl, h]
    cases c <;> rfl
  · have hm : (0x080000000000#48).getLsbD i = false := by
      rw [show (0x080000000000#48) = BitVec.twoPow 48 43 from rfl, BitVec.getLsbD_twoPow]
      simp only [decide_eq_false (Ne.symm h43), Bool.and_false]
    rw [hm, Bool.and_false]
    cases c
    · simp
    · exact hm.symm

theorem TableMatch.new (count : Nat) (level : Byte) : TableMatch.Statement (.new count level) :=
  fun _ => ⟨rfl, (and_toNat (h32Word 0x01#8 (countField count) level) 0xFF0000FF#32).trans
    (congrArg BitVec.toNat (mask_h32_new _ _))⟩

theorem TableMatch.brightness (level : Byte) : TableMatch.Statement (.brightness level) :=
  fun _ => ⟨rfl, (and_toNat (h32Word 0x02#8 level 0x00#8) 0xFF00FFFF#32).trans (congrArg BitVec.toNat (mask_h32_brightness _))⟩

theorem TableMatch.clear : TableMatch.Statement .clear :=
  fun _ => by decide

theorem TableMatch.draw : TableMatch.Statement .draw :=
  fun _ => by decide

theorem TableMatch.sInit : TableMatch.Statement .sInit :=
  fun _ => by decide

theorem TableMatch.sMeasure : TableMatch.Statement .sMeasure :=
  fun _ => by decide

theorem TableMatch.wNoop : TableMatch.Statement .wNoop :=
  fun _ => by decide

theorem TableMatch.wRow0 (dat : Byte) : TableMatch.Statement (.wRow0 dat) :=
  fun _ => ⟨rfl, (and_toNat (w16Word (Config.opRow 0) dat) 0xFF00#16).trans (congrArg BitVec.toNat (mask_w16 _ _))⟩

theorem TableMatch.wRow1 (dat : Byte) : TableMatch.Statement (.wRow1 dat) :=
  fun _ => ⟨rfl, (and_toNat (w16Word (Config.opRow 1) dat) 0xFF00#16).trans (congrArg BitVec.toNat (mask_w16 _ _))⟩

theorem TableMatch.wRow2 (dat : Byte) : TableMatch.Statement (.wRow2 dat) :=
  fun _ => ⟨rfl, (and_toNat (w16Word (Config.opRow 2) dat) 0xFF00#16).trans (congrArg BitVec.toNat (mask_w16 _ _))⟩

theorem TableMatch.wRow3 (dat : Byte) : TableMatch.Statement (.wRow3 dat) :=
  fun _ => ⟨rfl, (and_toNat (w16Word (Config.opRow 3) dat) 0xFF00#16).trans (congrArg BitVec.toNat (mask_w16 _ _))⟩

theorem TableMatch.wRow4 (dat : Byte) : TableMatch.Statement (.wRow4 dat) :=
  fun _ => ⟨rfl, (and_toNat (w16Word (Config.opRow 4) dat) 0xFF00#16).trans (congrArg BitVec.toNat (mask_w16 _ _))⟩

theorem TableMatch.wRow5 (dat : Byte) : TableMatch.Statement (.wRow5 dat) :=
  fun _ => ⟨rfl, (and_toNat (w16Word (Config.opRow 5) dat) 0xFF00#16).trans (congrArg BitVec.toNat (mask_w16 _ _))⟩

theorem TableMatch.wRow6 (dat : Byte) : TableMatch.Statement (.wRow6 dat) :=
  fun _ => ⟨rfl, (and_toNat (w16Word (Config.opRow 6) dat) 0xFF00#16).trans (congrArg BitVec.toNat (mask_w16 _ _))⟩

theorem TableMatch.wRow7 (dat : Byte) : TableMatch.Statement (.wRow7 dat) :=
  fun _ => ⟨rfl, (and_toNat (w16Word (Config.opRow 7) dat) 0xFF00#16).trans (congrArg BitVec.toNat (mask_w16 _ _))⟩

theorem TableMatch.wDecodeRaw : TableMatch.Statement .wDecodeRaw :=
  fun _ => by decide

theorem TableMatch.wIntensity (level : Byte) : TableMatch.Statement (.wIntensity level) :=
  fun _ => ⟨rfl, (and_toNat (w16Word Config.opIntensity level) 0xFF00#16).trans (congrArg BitVec.toNat (mask_w16 _ _))⟩

theorem TableMatch.wPowerOn : TableMatch.Statement .wPowerOn :=
  fun _ => by decide

theorem TableMatch.twCmdInit : TableMatch.Statement .twCmdInit :=
  fun _ => by decide

theorem TableMatch.twCmdTrigger : TableMatch.Statement .twCmdTrigger :=
  fun _ => by decide

theorem TableMatch.r48Calibrated (r : Reply) : TableMatch.Statement (.r48Calibrated r) :=
  fun h => ⟨rfl, (and_toNat (wordOfReply r) 0x080000000000#48).trans (congrArg BitVec.toNat (mask_r48 (c := true) h))⟩

theorem TableMatch.r48Uncalibrated (r : Reply) : TableMatch.Statement (.r48Uncalibrated r) :=
  fun h => ⟨rfl, (and_toNat (wordOfReply r) 0x080000000000#48).trans
    (congrArg BitVec.toNat (mask_r48 (c := false) (by simpa [wellFormed, Reply.isCalibrated] using h)))⟩

end Sys2Proof.Laws
end

