-- ==== Sys2Proof/Laws/Sensor.lean ====
section
/-! SUPPORT. What each stage of the two sensor pipelines can do, said once (43_sensor R201 to R216): its bus answers
decide, and the state after it is written out. -/

namespace Sys2Proof.Machine

/-! ### Events of the sensor do not reach the observer -/

@[simp] theorem State.emit_twWrite (addr : BusAddr) (bytes : List Byte) (s : State) :
    s.emit (.twWrite addr bytes) = { s with tape := .twWrite addr bytes :: s.tape } := rfl

@[simp] theorem State.emit_twRead (addr : BusAddr) (n : Nat) (bytes : List Byte) (s : State) :
    s.emit (.twRead addr n bytes) = { s with tape := .twRead addr n bytes :: s.tape } := rfl

@[simp] theorem State.emit_delay (ms : Nat) (s : State) : s.emit (.delay ms) = { s with tape := .delay ms :: s.tape } :=
  rfl

/-! ### The transactions -/

/-- A write that is answered `ok`. -/
theorem twWrite_ok {addr : BusAddr} {bytes : List Byte} {s : State} (h : s.busWriteAnswer addr bytes = true) :
    twWrite addr bytes s =
      (true, { s with tape := .twWrite addr bytes :: s.tape, busWrites := s.busWrites.skip 1 }) := if_pos h

/-- A write that fails: no event. -/
theorem twWrite_fail {addr : BusAddr} {bytes : List Byte} {s : State} (h : s.busWriteAnswer addr bytes = false) :
    twWrite addr bytes s = (false, s.askBusWrite) := if_neg (by rw [h]; exact Bool.false_ne_true)

/-- A read that is answered with six bytes. -/
theorem twRead_ok {addr : BusAddr} {r : Reply} {s : State} (h : s.busReadAnswer addr = some r) :
    twRead addr s =
      (some r, { s with tape := .twRead addr 6 (replyBytes r) :: s.tape, busReads := s.busReads.skip 1 }) := by
  simp only [twRead, h]
  rfl

/-- A read that fails: no event. -/
theorem twRead_fail {addr : BusAddr} {s : State} (h : s.busReadAnswer addr = none) :
    twRead addr s = (none, s.askBusRead) := by
  simp only [twRead, h]

/-! ### The stages -/

theorem stageCmd_ok {s : State} (h : s.busWriteAnswer Config.sensorAddr Config.cmdInit = true) :
    stageCmd s =
      Run.ok { s with
        seq := { s.seq with phase := .cmd }
        tape := .twWrite Config.sensorAddr Config.cmdInit :: s.tape
        busWrites := s.busWrites.skip 1 } := by
  have h' : (s.inPhase .cmd).busWriteAnswer Config.sensorAddr Config.cmdInit = true := h
  simp only [stageCmd, twWrite_ok h', if_true]
  rfl

theorem stageCmd_fail {s : State} (h : s.busWriteAnswer Config.sensorAddr Config.cmdInit = false) :
    stageCmd s =
      Run.raise .sensorInit { s with
        seq := { s.seq with phase := .cmd }
        sns := .undefined
        busWrites := s.busWrites.skip 1 } := by
  have h' : (s.inPhase .cmd).busWriteAnswer Config.sensorAddr Config.cmdInit = false := h
  simp only [stageCmd, twWrite_fail h']
  rfl

theorem stageSettle_eq (s : State) :
    stageSettle s =
      { s with seq := { s.seq with phase := .settle }, tape := .delay 300 :: s.tape, sns := .ready } := rfl

theorem stageTrigger_ok {s : State} (h : s.busWriteAnswer Config.sensorAddr Config.cmdTrigger = true) :
    stageTrigger s =
      Run.ok { s with
        seq := { s.seq with phase := .trigger }
        tape := .twWrite Config.sensorAddr Config.cmdTrigger :: s.tape
        busWrites := s.busWrites.skip 1 } := by
  have h' : (s.inPhase .trigger).busWriteAnswer Config.sensorAddr Config.cmdTrigger = true := h
  simp only [stageTrigger, twWrite_ok h', if_true]
  rfl

theorem stageTrigger_fail {s : State} (h : s.busWriteAnswer Config.sensorAddr Config.cmdTrigger = false) :
    stageTrigger s =
      Run.raise .sensorMeasure { s with
        seq := { s.seq with phase := .trigger }
        busWrites := s.busWrites.skip 1 } := by
  have h' : (s.inPhase .trigger).busWriteAnswer Config.sensorAddr Config.cmdTrigger = false := h
  simp only [stageTrigger, twWrite_fail h']
  rfl

theorem stageConvert_eq (s : State) :
    stageConvert s = { s with seq := { s.seq with phase := .convert }, tape := .delay 100 :: s.tape } := rfl

theorem stageRead_ok {s : State} {r : Reply} (h : s.busReadAnswer Config.sensorAddr = some r) :
    stageRead s =
      Run.ok { s with
        seq := { s.seq with phase := .read }
        tape := .twRead Config.sensorAddr 6 (replyBytes r) :: s.tape
        busReads := s.busReads.skip 1
        scratch := { s.scratch with rx := r } } := by
  have h' : (s.inPhase .read).busReadAnswer Config.sensorAddr = some r := h
  simp only [stageRead, twRead_ok h']
  rfl

theorem stageRead_fail {s : State} (h : s.busReadAnswer Config.sensorAddr = none) :
    stageRead s =
      Run.raise .sensorMeasure { s with
        seq := { s.seq with phase := .read }
        busReads := s.busReads.skip 1 } := by
  have h' : (s.inPhase .read).busReadAnswer Config.sensorAddr = none := h
  simp only [stageRead, twRead_fail h']
  rfl

/-- Stages STATUS to SCALE with the calibration bit set: no effect outside the operation's own registers. -/
theorem decodeReplyStages_ok {s : State} (h : s.scratch.rx.b0.getLsbD 3 = true) :
    decodeReplyStages s =
      Run.ok { s with
        seq := { s.seq with phase := .decodeReply }
        scratch :=
          { s.scratch with
            busy := statusBusy s.scratch.rx.b0
            mode := statusMode s.scratch.rx.b0
            cal := statusCal s.scratch.rx.b0
            humRaw := assembleHumidity s.scratch.rx
            tempRaw := assembleTemperature s.scratch.rx
            hum := scaleH (assembleHumidity s.scratch.rx)
            temp := scaleT (assembleTemperature s.scratch.rx) } } := if_pos h

/-- Stages STATUS to SCALE with the calibration bit clear: the flags are decoded and nothing is assembled. -/
theorem decodeReplyStages_fail {s : State} (h : s.scratch.rx.b0.getLsbD 3 = false) :
    decodeReplyStages s =
      Run.raise .uncalibrated { s with
        seq := { s.seq with phase := .decodeReply }
        scratch :=
          { s.scratch with
            busy := statusBusy s.scratch.rx.b0
            mode := statusMode s.scratch.rx.b0
            cal := statusCal s.scratch.rx.b0 } } := if_neg (by
    show ¬s.scratch.rx.b0.getLsbD 3 = true
    rw [h]
    exact Bool.false_ne_true)

end Sys2Proof.Machine
end

