-- ==== Sys2Proof/Tests/Slice0.lean ====
section
/-! SUPPORT. Tests: the checks of WellFormed refuse ill-formed terms; words written out from the spec's encodings decode to
their instructions; single steps give what the spec's worked examples give (95_test_vectors); and, for every obligation
with hypotheses, a named state and operands that meet them. -/

namespace Sys2Proof.Tests

open Sys2Proof.Machine

/-! ### Helpers -/

/-- A field of the next state, where there is one. -/
def look {α : Type} (f : State → α) : Host.Outcome State Fault Refusal → Option α
  | .next t => some (f t)
  | .fault _ => none
  | .refused _ => none

/-- Three owned lines as a completed frame leaves them. -/
def ownedLines : Lines := ⟨⟨true, .low⟩, ⟨true, .low⟩, ⟨true, .high⟩⟩

/-- Modules that the observer follows, on, in raw mode and blank. -/
def seenModules : Observer :=
  { Observer.unspecified with
    clk := .low
    mods := List.replicate 16 ⟨List.replicate 8 (some 0x00#8), some 0x00#8, some 0#4, some true⟩ }

/-- A live display of `n` modules whose next line writes are answered as `pins` says. -/
def live (n : Nat) (pins : List Bool) : State :=
  { State.reset with
    cfg := some (configOf n)
    disp := .live
    lines := ownedLines
    pins := ⟨pins, 0⟩
    modules := seenModules }

/-- No display, PinOracle's next answers as `pins` says, on modules the observer can follow. -/
def bare (pins : List Bool) : State := { State.reset with pins := ⟨pins, 0⟩, modules := seenModules }

/-- A sensor in state `v` whose next write and read are answered as given. -/
def sensor (v : Sns) (writes : List Bool) (reads : List (Option Reply)) : State :=
  { State.reset with sns := v, busWrites := ⟨writes, 0⟩, busReads := ⟨reads, 0⟩ }

/-- The sequencer at module `i`. -/
def atPos (i : Nat) (s : State) : State := { s with seq := { SeqPos.idle with i := i } }

/-- The source's reply (S4, V1). -/
def replyV1 : Reply := ⟨0x98#8, 0x1E#8, 0xA2#8, 0x35#8, 0x22#8, 0xA0#8⟩

/-- A reply whose calibration bit alone is clear (V7). -/
def replyV7 : Reply := ⟨0xF7#8, 0x12#8, 0x34#8, 0x56#8, 0x78#8, 0x9A#8⟩

/-- The canvas of V30: `P(x, y) = 1` where `x = y`. -/
def diagonal : List Pixel := (List.range 8).map fun x => ⟨x, x, 1#8⟩

/-! ### WellFormed refuses ill-formed terms -/

theorem test_wf_new_count : wellFormed (.new 256 0x03#8) = false := by decide

theorem test_wf_r48_calibrated : wellFormed (.r48Calibrated replyV7) = false := by decide

theorem test_wf_r48_uncalibrated : wellFormed (.r48Uncalibrated replyV1) = false := by decide

/-! ### Decoding: words written out from 30_encoding R82, R87, R90, R91 -/

/-- V40 and 30_encoding R82: one word for each host operation, and the operands at their edges. -/
theorem test_decode_h32 :
    decode (.h32 0x01010300#32) = .ok (.new 1 0x03#8) ∧ decode (.h32 0x01000000#32) = .ok (.new 0 0x00#8) ∧
    decode (.h32 0x01FF80FF#32) = .error .reservedNotZero ∧ decode (.h32 0x01FFFF00#32) = .ok (.new 255 0xFF#8) ∧
    decode (.h32 0x020F0000#32) = .ok (.brightness 0x0F#8) ∧ decode (.h32 0x03000000#32) = .ok .clear ∧
    decode (.h32 0x04000000#32) = .ok .draw ∧ decode (.h32 0x10000000#32) = .ok .sInit ∧
    decode (.h32 0x11000000#32) = .ok .sMeasure := by decide

/-- V41: the illegal words. -/
theorem test_decode_h32_illegal :
    decode (.h32 0x00000000#32) = .error .unknownOpcode ∧ decode (.h32 0x05000000#32) = .error .unknownOpcode ∧
    decode (.h32 0x12000000#32) = .error .unknownOpcode ∧ decode (.h32 0xFF000000#32) = .error .unknownOpcode ∧
    decode (.h32 0x01010301#32) = .error .reservedNotZero ∧ decode (.h32 0x02030100#32) = .error .unusedOperandNotZero ∧
    decode (.h32 0x03010000#32) = .error .unusedOperandNotZero ∧
    decode (.h32 0x11000100#32) = .error .unusedOperandNotZero := by decide

/-- V42 and 30_encoding R87: the twelve wire words. -/
theorem test_decode_w16 :
    decode (.w16 0x0000#16) = .ok .wNoop ∧ decode (.w16 0x0180#16) = .ok (.wRow0 0x80#8) ∧
    decode (.w16 0x0240#16) = .ok (.wRow1 0x40#8) ∧ decode (.w16 0x0340#16) = .ok (.wRow2 0x40#8) ∧
    decode (.w16 0x0410#16) = .ok (.wRow3 0x10#8) ∧ decode (.w16 0x05C3#16) = .ok (.wRow4 0xC3#8) ∧
    decode (.w16 0x0604#16) = .ok (.wRow5 0x04#8) ∧ decode (.w16 0x0702#16) = .ok (.wRow6 0x02#8) ∧
    decode (.w16 0x0801#16) = .ok (.wRow7 0x01#8) ∧ decode (.w16 0x0900#16) = .ok .wDecodeRaw ∧
    decode (.w16 0x0A1F#16) = .ok (.wIntensity 0x1F#8) ∧ decode (.w16 0x0C01#16) = .ok .wPowerOn := by decide

/-- 30_encoding R89: the words the block never sends. -/
theorem test_decode_w16_never_sent :
    decode (.w16 0x0B07#16) = .error .notAWireCommand ∧ decode (.w16 0x0C00#16) = .error .notAWireCommand ∧
    decode (.w16 0x0D00#16) = .error .notAWireCommand ∧ decode (.w16 0x0E00#16) = .error .notAWireCommand ∧
    decode (.w16 0x0F00#16) = .error .notAWireCommand ∧ decode (.w16 0x1100#16) = .error .notAWireCommand ∧
    decode (.w16 0x0001#16) = .error .notAWireCommand ∧ decode (.w16 0x0901#16) = .error .notAWireCommand := by decide

/-- 30_encoding R90 and V43, V7. -/
theorem test_decode_s24_r48 :
    decode (.s24 0xE10800#24) = .ok .twCmdInit ∧ decode (.s24 0xAC3300#24) = .ok .twCmdTrigger ∧
    decode (.s24 0xE10801#24) = .error .notASensorCommand ∧
    decode (.r48 0x981EA23522A0#48) = .ok (.r48Calibrated replyV1) ∧
    decode (.r48 0xF7123456789A#48) = .ok (.r48Uncalibrated replyV7) := by decide

/-- The rows of the opcode table, one instruction of each. -/
def oneOfEach : List Instr :=
  [.new 1 0x03#8, .brightness 0x03#8, .clear, .draw, .sInit, .sMeasure, .wNoop, .wRow0 0x01#8, .wRow1 0x01#8, .wRow2 0x01#8,
    .wRow3 0x01#8, .wRow4 0x01#8, .wRow5 0x01#8, .wRow6 0x01#8, .wRow7 0x01#8, .wDecodeRaw, .wIntensity 0x03#8, .wPowerOn,
    .twCmdInit, .twCmdTrigger, .r48Calibrated replyV1, .r48Uncalibrated replyV7]

/-- 30_encoding R96: no word is of two rows of one width. -/
theorem test_table_rows_disjoint :
    (oneOfEach.map tableRow).Pairwise
      (fun a b => a.bits = b.bits → a.mask &&& b.mask &&& (a.pattern ^^^ b.pattern) ≠ 0) := by decide

/-- The numbering of the table: the host's word of NEW 1, 3 and the wire word of W_POWER_ON. -/
theorem test_decode_table_word :
    decodeTableWord 32 0x01010300 = some (.new 1 0x03#8) ∧ decodeTableWord 16 0x0C01 = some .wPowerOn ∧
    decodeTableWord 24 0xAC3300 = some .twCmdTrigger ∧ decodeTableWord 48 0x981EA23522A0 = some (.r48Calibrated replyV1) ∧
    decodeTableWord 8 0 = none := by decide

/-! ### The serial port -/

/-- The three events of a data bit. -/
def shifted (bits : List Bool) : List Event :=
  bits.flatMap fun b => [.set .data (if b then .high else .low), .set .clk .high, .set .clk .low]

/-- V10: FRAME of `0C 01`, 50 events. -/
theorem test_frame_V10 :
    frameEvents [0x0C#8, 0x01#8] =
      .set .cs .low :: shifted [false, false, false, false, true, true, false, false, false, false, false, false, false,
        false, false, true] ++ [.set .cs .high] := by decide

/-- V11: SHIFT_BYTE of `A5`. -/
theorem test_shift_byte_V11 :
    (byteWrites 0 0xA5#8).map LineWrite.event = shifted [true, false, true, false, false, true, false, true] := by decide

/-- V12, V42: the word at its position. -/
theorem test_buffer_V12_V42 :
    wireBuffer 2 1 0x03#8 0x40#8 = [0x00#8, 0x00#8, 0x03#8, 0x40#8] ∧
    wireBuffer 3 1 0x05#8 0xC3#8 = [0x00#8, 0x00#8, 0x05#8, 0xC3#8, 0x00#8, 0x00#8] := by decide

/-! ### NEW -/

/-- V23: the claim of CS fails. -/
theorem test_new_V23 :
    look (fun t => (t.trace, t.results, t.disp, t.cfg)) (exec (.new 1 0x03#8) (bare [true, true, false])) =
      some ([.claim .data], [.err .connection], .absent, none) := by rfl

/-- V20: NEW 1, 3 on healthy lines: the number of events, the lines, the result. -/
theorem test_new_V20 :
    look (fun t => (t.tape.length, t.lines, t.results, t.disp, t.modules.mods.head?))
        (exec (.new 1 0x03#8) (bare (List.replicate 554 true))) =
      some (553, ⟨⟨true, .high⟩, ⟨true, .low⟩, ⟨true, .high⟩⟩, [.ok], .live,
        some ⟨List.replicate 8 (some 0x00#8), some 0x00#8, some 3#4, some true⟩) := by decide +kernel

/-! ### BRIGHTNESS, CLEAR, DRAW -/

/-- V24: BRIGHTNESS 0x1F on two modules. -/
theorem test_brightness_V24 :
    look State.trace (exec (.brightness 0x1F#8) (live 2 (List.replicate 196 true))) =
      some (framesEvents [[0x0A#8, 0x1F#8, 0x00#8, 0x00#8], [0x00#8, 0x00#8, 0x0A#8, 0x1F#8]]) := by decide +kernel

/-- V24: the first write of the second frame fails. -/
theorem test_brightness_cut_V24 :
    look (fun t => (t.tape.length, t.results, t.lines.cs.level))
        (exec (.brightness 0x1F#8) (live 2 (List.replicate 98 true ++ [false]))) =
      some (98, [.err .data], .unknown) := by decide +kernel

/-- 42 R163 on one module: eight zero rows upward. -/
theorem test_clear_one_module :
    look State.trace (exec .clear (live 1 (List.replicate 400 true))) =
      some (framesEvents [[0x01#8, 0x00#8], [0x02#8, 0x00#8], [0x03#8, 0x00#8], [0x04#8, 0x00#8], [0x05#8, 0x00#8],
        [0x06#8, 0x00#8], [0x07#8, 0x00#8], [0x08#8, 0x00#8]]) := by decide +kernel

/-- V30: DRAW of the diagonal on one module. -/
theorem test_draw_V30 :
    look State.trace (exec .draw ((live 1 (List.replicate 400 true)).present diagonal)) =
      some (framesEvents [[0x01#8, 0x80#8], [0x02#8, 0x40#8], [0x03#8, 0x20#8], [0x04#8, 0x10#8], [0x05#8, 0x08#8],
        [0x06#8, 0x04#8], [0x07#8, 0x02#8], [0x08#8, 0x01#8]]) := by decide +kernel

/-- P4: the 31st line write of the DRAW fails; the levels of V14 and the place of the cut. -/
theorem test_draw_cut_P4 :
    look (fun t => (t.tape.length, t.results, t.lines, t.lastCut, t.disp))
        (exec .draw ((live 1 (List.replicate 30 true ++ [false])).present diagonal)) =
      some (30, [.err .data], ⟨⟨true, .low⟩, ⟨true, .unknown⟩, ⟨true, .low⟩⟩, ⟨.draw, .write, 0, 0, 1, 6, .clkLow⟩,
        .live) := by rfl

/-- P4: the observer after the DRAW that follows the cut one promises rows 1 to 7 and not row 0. -/
theorem test_draw_after_cut_P4 :
    look (fun t => (t.results, t.modules.mods.head?))
        (exec .draw ({ live 1 (List.replicate 400 true) with
          lines := ⟨⟨true, .low⟩, ⟨true, .unknown⟩, ⟨true, .low⟩⟩
          modules := { seenModules with clk := .unknown, cs := .low, data := .low } }.present diagonal)) =
      some ([.ok], some ⟨[none, some 0x40#8, some 0x20#8, some 0x10#8, some 0x08#8, some 0x04#8, some 0x02#8, some 0x01#8],
        some 0x00#8, some 0#4, some true⟩) := by decide +kernel

/-- 70 R335: a doubtful frame that is itself cut with CLK Low, then a complete one, which is received correctly. -/
theorem test_complete_frame_after_slipped_cut :
    ((Observer.watch 1 { seenModules with clk := .unknown, cs := .low }
        ((frameEvents [0x02#8, 0xFF#8]).take 10 ++ frameEvents [0x01#8, 0x80#8])).mods.head?.map MatrixModule.rows) =
      some (some 0x80#8 :: List.replicate 7 (some 0x00#8)) := by decide +kernel

/-- 93 U9: a power off ends the observation, as a register address the block never sends does. -/
theorem test_power_off_stuck :
    (Observer.watch 1 seenModules (frameEvents [0x0C#8, 0x00#8])).stuck = true ∧
    (Observer.watch 1 seenModules (frameEvents [0x0B#8, 0x07#8])).stuck = true ∧
    (Observer.watch 1 seenModules (frameEvents [0x0C#8, 0x01#8])).stuck = false := by decide +kernel

/-- 42 R161: the host issues a count that no word carries. -/
theorem test_issue_new_257 :
    look State.results (step (State.reset.issue (.new 257 0x03#8))) = some [.err .countExceeded] := by rfl

/-! ### Wire commands -/

/-- 41 R130. -/
theorem test_w_noop : look State.trace (exec .wNoop (live 1 [])) = some [] := by rfl

/-- V12 and V42: a row command in the middle of a chain. -/
theorem test_w_row2_row4 :
    look State.trace (exec (.wRow2 0x40#8) (atPos 1 (live 2 (List.replicate 98 true)))) =
      some (frameEvents [0x00#8, 0x00#8, 0x03#8, 0x40#8]) ∧
    look State.trace (exec (.wRow4 0xC3#8) (atPos 1 (live 3 (List.replicate 146 true)))) =
      some (frameEvents [0x00#8, 0x00#8, 0x05#8, 0xC3#8, 0x00#8, 0x00#8]) := ⟨by rfl, by rfl⟩

/-- V42: the other row commands on one module. -/
theorem test_w_rows :
    ([.wRow0 0x80#8, .wRow1 0x40#8, .wRow3 0x10#8, .wRow5 0x04#8, .wRow6 0x02#8, .wRow7 0x01#8] : List Instr).map
        (fun i => look State.trace (exec i (live 1 (List.replicate 50 true)))) =
      [[0x01#8, 0x80#8], [0x02#8, 0x40#8], [0x04#8, 0x10#8], [0x06#8, 0x04#8], [0x07#8, 0x02#8], [0x08#8, 0x01#8]].map
        (fun buf => some (frameEvents buf)) := by rfl

/-- V42, V10: the control commands on one module. -/
theorem test_w_control :
    ([.wDecodeRaw, .wIntensity 0x1F#8, .wPowerOn] : List Instr).map
        (fun i => look State.trace (exec i (live 1 (List.replicate 50 true)))) =
      [[0x09#8, 0x00#8], [0x0A#8, 0x1F#8], [0x0C#8, 0x01#8]].map (fun buf => some (frameEvents buf)) := by rfl

/-- V14: W_ROW0 whose 31st line write fails. -/
theorem test_w_row0_V14 :
    look (fun t => (t.tape.length, t.results, t.lines, t.lastCut.b, t.lastCut.k, t.lastCut.s))
        (exec (.wRow0 0x80#8) (live 1 (List.replicate 30 true ++ [false]))) =
      some (30, [.err .data], ⟨⟨true, .low⟩, ⟨true, .unknown⟩, ⟨true, .low⟩⟩, 1, 6, .clkLow) := by rfl

/-! ### The sensor -/

/-- V9: S_INIT, write ok and write failing. -/
theorem test_s_init_V9 :
    look (fun t => (t.trace, t.results, t.sns)) (exec .sInit (sensor .uninitialized [true] [])) =
      some ([.twWrite Config.sensorAddr [0xE1#8, 0x08#8, 0x00#8], .delay 300], [.ok], .ready) ∧
    look (fun t => (t.trace, t.results, t.sns)) (exec .sInit (sensor .uninitialized [false] [])) =
      some ([], [.err .sensorInit], .undefined) := ⟨by rfl, by rfl⟩

/-- V9, V1: S_MEASURE with the source's reply. -/
theorem test_s_measure_V9 :
    look (fun t => (t.trace, t.sns)) (exec .sMeasure (sensor .ready [true] [some replyV1])) =
      some ([.twWrite Config.sensorAddr [0xAC#8, 0x33#8, 0x00#8], .delay 100,
        .twRead Config.sensorAddr 6 [0x98#8, 0x1E#8, 0xA2#8, 0x35#8, 0x22#8, 0xA0#8]], .ready) ∧
    look State.results (exec .sMeasure (sensor .ready [true] [some replyV1])) =
      some [.reading 0x41630D00#32 0x413F75AC#32] := ⟨by rfl, by rfl⟩

/-- V9: S_MEASURE whose read fails, and whose reply is not calibrated. -/
theorem test_s_measure_fail_V9 :
    look (fun t => (t.tape.length, t.results, t.sns)) (exec .sMeasure (sensor .ready [true] [none])) =
      some (2, [.err .sensorMeasure], .ready) ∧
    look (fun t => (t.tape.length, t.results, t.sns)) (exec .sMeasure (sensor .ready [true] [some replyV7])) =
      some (3, [.err .uncalibrated], .ready) := ⟨by rfl, by rfl⟩

/-- V9: the two command strings. -/
theorem test_tw_cmd :
    look State.trace (exec .twCmdInit (sensor .uninitialized [true] [])) =
      some [.twWrite Config.sensorAddr [0xE1#8, 0x08#8, 0x00#8]] ∧
    look State.trace (exec .twCmdTrigger (sensor .ready [true] [])) =
      some [.twWrite Config.sensorAddr [0xAC#8, 0x33#8, 0x00#8]] := ⟨by rfl, by rfl⟩

/-- V3 and V5c: all-ones counts, and a status byte with every bit set. -/
theorem test_r48_calibrated_V3_V5c :
    look State.results (exec (.r48Calibrated ⟨0x08#8, 0xFF#8, 0xFF#8, 0xFF#8, 0xFF#8, 0xFF#8⟩) State.reset) =
      some [.reading 0x4315FFF4#32 0x42C7FFF4#32] ∧
    look State.results (exec (.r48Calibrated ⟨0xFF#8, 0x00#8, 0x00#8, 0x10#8, 0x00#8, 0x01#8⟩) State.reset) =
      some [.reading 0xC247FFCE#32 0x38C80000#32] := by decide

/-- V7. -/
theorem test_r48_uncalibrated_V7 :
    look State.results (exec (.r48Uncalibrated replyV7) State.reset) = some [.err .uncalibrated] := by decide

/-- V8: the counts at the edges of the rounding, and what the other FLOAT_EVAL would give. -/
theorem test_scale_V8 :
    scaleT 671088#20 = 0x429BFFF0#32 ∧ scaleT 671089#20 = 0x429C0008#32 ∧ scaleT 671090#20 = 0x429C0022#32 ∧
    scaleT 933231#20 = 0x42FFFFD8#32 ∧ scaleT 933233#20 = 0x43000004#32 ∧ scaleH 671088#20 = 0x427FFFF0#32 ∧
    scaleH 671089#20 = 0x42800004#32 ∧ scaleH 933233#20 = 0x42B20004#32 ∧
    (temperatureValue .exactThenRound 671089).bits = 0x429C0009#32 := by decide

/-- V41: an illegal host word is refused and leaves the rest as it was. -/
theorem test_step_illegal_V41 :
    step { State.reset with inbox := [0x05000000#32] } =
      .next { State.reset with results := [.refused .illegalCommand] } := by rfl

/-! ### Witnesses: the hypotheses of the obligations can be met -/

theorem pins_ok (n k : Nat) : (live n (List.replicate k true)).pinsOk k := pinsOk_of_script (rest := []) (by simp [live])

theorem pins_cut (n k : Nat) :
    (live n (List.replicate k true ++ [false])).pinsOk k ∧
      (live n (List.replicate k true ++ [false])).pinAnswer k = false :=
  ⟨pinsOk_of_script (rest := [false]) rfl, pinAnswer_of_script (rest := []) rfl⟩

theorem bare_ok (k : Nat) : (bare (List.replicate k true)).pinsOk k := pinsOk_of_script (rest := []) (by simp [bare])

theorem bare_cut (k : Nat) :
    (bare (List.replicate k true ++ [false])).pinsOk k ∧ (bare (List.replicate k true ++ [false])).pinAnswer k = false :=
  ⟨pinsOk_of_script (rest := [false]) rfl, pinAnswer_of_script (rest := []) rfl⟩

theorem witness_DecodeEncodeAgree :
    wellFormed (.new 255 0xFF#8) = true ∧ wellFormed (.r48Calibrated replyV1) = true ∧
      wellFormed (.r48Uncalibrated replyV7) = true := by decide

theorem witness_EncodeDecodeAgree : decode (.h32 0x01FFFF00#32) = .ok (.new 255 0xFF#8) := by decide

/-- Each clause of the condition, at its edge, and the other branch. -/
theorem witness_IllegalHostWordRefused :
    State.reset.bench = none ∧ ({ State.reset with inbox := [0x03000001#32] } : State).inbox = 0x03000001#32 :: [] ∧
    h32Z 0x03000001#32 ≠ 0x00#8 ∧ h32Opc 0x05000000#32 ∉ [0x01#8, 0x02#8, 0x03#8, 0x04#8, 0x10#8, 0x11#8] ∧
    h32B 0x02000100#32 ≠ 0x00#8 ∧ h32A 0x10010000#32 ≠ 0x00#8 ∧ h32B 0x11000100#32 ≠ 0x00#8 ∧
    decode (.h32 0x11000000#32) = .ok .sMeasure := by decide

/-- Each clause at its edge, and words on the other side. -/
theorem witness_NeverSentWordsRefused :
    ({ State.reset with bench := some (.w16 0x0B00#16) } : State).bench = some (.w16 0x0B00#16) ∧
    (0x01#8 ≤ w16Sel 0x0100#16 ∧ w16Sel 0x0100#16 ≤ 0x08#8) ∧ w16Sel 0x08FF#16 ≤ 0x08#8 ∧ w16Sel 0x0AFF#16 = 0x0A#8 ∧
    look (fun _ => ()) (step { State.reset with bench := some (.w16 0x0B00#16) }) = none ∧
    look (fun _ => ()) (step { State.reset with bench := some (.w16 0x0C00#16) }) = none := by decide

/-- A host word, and a wire word on the bench. -/
theorem witness_StepRunsDecoded :
    State.reset.bench = none ∧ ({ State.reset with inbox := [0x03000000#32] } : State).inbox = 0x03000000#32 :: [] ∧
      decode (.h32 0x03000000#32) = .ok .clear ∧ (State.reset.onBench (.w16 0x0C01#16)).bench = some (.w16 0x0C01#16) ∧
      decode (.w16 0x0C01#16) = .ok .wPowerOn := by decide

/-- Instructions that are no host operation and one that is, and a step of each of the three kinds with an empty bench. -/
theorem witness_HostReachesOnlyItsOperations :
    hostOperation .wPowerOn = false ∧ hostOperation .twCmdTrigger = false ∧ hostOperation (.r48Calibrated replyV1) = false ∧
      hostOperation .clear = true ∧ encode .clear = .h32 0x03000000#32 ∧
      State.reset.bench = none ∧ step State.reset = .next State.reset ∧
      decode (.h32 0x05000000#32) = .error .unknownOpcode ∧
      step { State.reset with inbox := [0x05000000#32] } = .next (State.reset.answer (.refused .illegalCommand)) ∧
      decode (.h32 0x03000000#32) = .ok .clear ∧
      step (State.reset.issue .clear) = .next (State.reset.answer (.refused .noDisplay)) :=
  ⟨rfl, rfl, rfl, rfl, rfl, rfl, rfl, rfl, rfl, rfl, rfl⟩

theorem witness_StepIdlesWithoutWords : State.reset.bench = none ∧ State.reset.inbox = [] := ⟨rfl, rfl⟩

theorem witness_FetchedWordRuns :
    issuedOfBits 32 0x04000000 = some (.h32 0x04000000#32) ∧ decode (.h32 0x04000000#32) = .ok .draw ∧
    issuedOfBits 16 0x0C01 = some (.w16 0x0C01#16) ∧ issuedOfBits 24 0xE10800 = some (.s24 0xE10800#24) ∧
    issuedOfBits 48 0x981EA23522A0 = some (.r48 0x981EA23522A0#48) := by decide

/-- Both sides of the range. -/
theorem witness_NewRejectsCount :
    State.reset.disp = .absent ∧ (0 < 1 ∨ 16 < 0) ∧ (17 < 1 ∨ 16 < 17) ∧ State.reset.scratch = Scratch.empty ∧
      State.reset.seq = SeqPos.idle := by decide

/-- Both sides of the range, and a count that no word carries. -/
theorem witness_IssuedCountIsRejected :
    State.reset.bench = none ∧ State.reset.inbox = [] ∧ State.reset.disp = .absent ∧ (0 < 1 ∨ 16 < 0) ∧
      (17 < 1 ∨ 16 < 17) ∧ (257 < 1 ∨ 16 < 257) ∧ State.reset.scratch = Scratch.empty ∧
      State.reset.seq = SeqPos.idle := by decide

/-- Both ends of the range. -/
theorem witness_NewSucceeds :
    (bare (List.replicate 554 true)).disp = .absent ∧ (bare (List.replicate 554 true)).pinsOk (4 + 11 * 1 * (2 + 48 * 1)) ∧
      (bare (List.replicate (4 + 11 * 16 * (2 + 48 * 16)) true)).pinsOk (4 + 11 * 16 * (2 + 48 * 16)) :=
  ⟨rfl, bare_ok 554, bare_ok _⟩

/-- Each of the four questions of the phase CLAIM. -/
theorem witness_NewClaimFails :
    ∀ k, k < 4 → (bare (List.replicate k true ++ [false])).disp = .absent ∧
      (bare (List.replicate k true ++ [false])).pinsOk k ∧
      (bare (List.replicate k true ++ [false])).pinAnswer k = false :=
  fun k _ => ⟨rfl, bare_cut k⟩

/-- A line write of each phase of a NEW of one module: the first of POWER, DECODE, CLEAR and BRIGHT, and the last of all. -/
theorem witness_NewCutBySendingFailure :
    (newFrames 1 0x03#8)[0]? = some [0x0C#8, 0x01#8] ∧ (newFrames 1 0x03#8)[1]? = some [0x09#8, 0x00#8] ∧
    (newFrames 1 0x03#8)[2]? = some [0x01#8, 0x00#8] ∧ (newFrames 1 0x03#8)[10]? = some [0x0A#8, 0x03#8] ∧
    (frameWrites [0x0C#8, 0x01#8])[0]? = some ⟨.cs, .low, 0, 7, .csLow⟩ ∧
    (frameWrites [0x09#8, 0x00#8])[0]? = some ⟨.cs, .low, 0, 7, .csLow⟩ ∧
    (frameWrites [0x01#8, 0x00#8])[0]? = some ⟨.cs, .low, 0, 7, .csLow⟩ ∧
    (frameWrites [0x0A#8, 0x03#8])[0]? = some ⟨.cs, .low, 0, 7, .csLow⟩ ∧
    (frameWrites [0x0A#8, 0x03#8])[49]? = some ⟨.cs, .high, 1, 0, .csHigh⟩ ∧ 549 = 10 * (2 + 48 * 1) + 49 ∧
    ∀ j, (bare (List.replicate (4 + j) true ++ [false])).disp = .absent ∧
      (bare (List.replicate (4 + j) true ++ [false])).pinsOk (4 + j) ∧
      (bare (List.replicate (4 + j) true ++ [false])).pinAnswer (4 + j) = false :=
  ⟨rfl, rfl, rfl, rfl, rfl, rfl, rfl, rfl, rfl, rfl, fun j => ⟨rfl, bare_cut (4 + j)⟩⟩

theorem witness_NewRefusedWhileLive : (live 1 []).disp = .live := rfl

theorem witness_BrightnessSucceeds :
    (live 2 (List.replicate 196 true)).disp = .live ∧ (live 2 (List.replicate 196 true)).cfg = some (configOf 2) ∧
      (live 2 (List.replicate 196 true)).lines.allOwned = true ∧
      (live 2 (List.replicate 196 true)).pinsOk ((configOf 2).n * (2 + 48 * (configOf 2).n)) :=
  ⟨rfl, rfl, rfl, pins_ok 2 196⟩

theorem witness_ClearSucceeds :
    (live 1 (List.replicate 400 true)).disp = .live ∧ (live 1 (List.replicate 400 true)).cfg = some (configOf 1) ∧
      (live 1 (List.replicate 400 true)).lines.allOwned = true ∧
      (live 1 (List.replicate 400 true)).pinsOk (8 * (configOf 1).n * (2 + 48 * (configOf 1).n)) :=
  ⟨rfl, rfl, rfl, pins_ok 1 400⟩

theorem witness_DrawSucceeds :
    (live 2 (List.replicate 1568 true)).disp = .live ∧ (live 2 (List.replicate 1568 true)).cfg = some (configOf 2) ∧
      (live 2 (List.replicate 1568 true)).lines.allOwned = true ∧
      (live 2 (List.replicate 1568 true)).pinsOk (8 * (configOf 2).n * (2 + 48 * (configOf 2).n)) :=
  ⟨rfl, rfl, rfl, pins_ok 2 1568⟩

/-- The first line write of the first frame of each of the three operations, and the last of the last frame of DRAW. -/
theorem witness_DisplayOperationCut :
    (live 1 [false]).disp = .live ∧ (live 1 [false]).cfg = some (configOf 1) ∧ (live 1 [false]).lines.allOwned = true ∧
    (∀ p, displayFrames p 1 (.brightness 0x03#8) = some (brightnessFrames 1 0x03#8) ∧
      displayFrames p 1 .clear = some (clearFrames 1) ∧ displayFrames p 1 .draw = some (drawFrames 1 p)) ∧
    (brightnessFrames 1 0x03#8)[0]? = some [0x0A#8, 0x03#8] ∧ (clearFrames 1)[0]? = some [0x01#8, 0x00#8] ∧
    (frameWrites [0x01#8, 0x00#8])[0]? = some ⟨.cs, .low, 0, 7, .csLow⟩ ∧
    (∀ p, (drawFrames 1 p)[7]? = some [0x08#8, rowByte p 0 7]) ∧
    (∀ p, (frameWrites [0x08#8, rowByte p 0 7])[49]? = some ⟨.cs, .high, 1, 0, .csHigh⟩) ∧
    0 = 0 * (2 + 48 * 1) + 0 ∧ 399 = 7 * (2 + 48 * 1) + 49 ∧
    (live 1 [false]).pinsOk 0 ∧ (live 1 [false]).pinAnswer 0 = false ∧
    (live 1 (List.replicate 399 true ++ [false])).pinsOk 399 ∧
    (live 1 (List.replicate 399 true ++ [false])).pinAnswer 399 = false :=
  ⟨rfl, rfl, rfl, fun _ => ⟨rfl, rfl, rfl⟩, rfl, rfl, rfl, fun _ => rfl, fun _ => rfl, rfl, rfl, (pins_cut 1 0).1,
    (pins_cut 1 0).2, (pins_cut 1 399).1, (pins_cut 1 399).2⟩

theorem witness_RefusedWithoutDisplay :
    State.reset.disp = .absent ∧ (Instr.draw = .clear ∨ Instr.draw = .draw ∨ ∃ level, Instr.draw = .brightness level) :=
  ⟨rfl, .inr (.inl rfl)⟩

/-- The corners of a module, and a pixel that is lit beside one that is not. -/
theorem witness_PixelToBit :
    (0 < 1 ∧ 0 < 8 ∧ 0 < 8) ∧ (15 < 16 ∧ 7 < 8 ∧ 7 < 8) ∧
      (fbByte (frameBuffer (pixelAt [⟨127, 0, 1#8⟩]) 16) 15 0).getLsbD (7 - 7) = true ∧
      (fbByte (frameBuffer (pixelAt [⟨127, 0, 1#8⟩]) 16) 15 0).getLsbD (7 - 6) = false := by decide

/-- Two sources that differ only outside the canvas. -/
theorem witness_DrawReadsTheCanvasOnly :
    (∀ x y, x < 8 * 1 → y < 8 → (0x00#8 : Byte) = if x < 8 ∧ y < 8 then 0x00#8 else 0x01#8) ∧
      (0x00#8 : Byte) ≠ if 8 < 8 ∧ 0 < 8 then 0x00#8 else 0x01#8 :=
  ⟨fun x y hx hy => (if_pos ⟨by omega, hy⟩).symm, by decide⟩

/-- The first and the last bit of a frame of two bytes. -/
theorem witness_FrameWritesInOrder :
    (0 < [0x0C#8, 0x01#8].length ∧ 7 < 8) ∧ (1 < [0x0C#8, 0x01#8].length ∧ 0 < 8) ∧
      (frameWrites [0x0C#8, 0x01#8])[1 + 24 * 1 + 3 * (7 - 0)]? = some ⟨.data, .high, 1, 0, .data⟩ := by decide

/-- The two bytes of the word and the bytes beside them. -/
theorem witness_WordPlacedAtPosition :
    1 < 3 ∧ (wireBuffer 3 1 0x05#8 0xC3#8).getD 1 0 = 0x00#8 ∧ (wireBuffer 3 1 0x05#8 0xC3#8).getD 2 0 = 0x05#8 ∧
      (wireBuffer 3 1 0x05#8 0xC3#8).getD 3 0 = 0xC3#8 ∧ (wireBuffer 3 1 0x05#8 0xC3#8).getD 4 0 = 0x00#8 := by decide

theorem witness_RowCommandsSendOneFrame :
    (atPos 1 (live 2 (List.replicate 98 true))).cfg = some (configOf 2) ∧
      (atPos 1 (live 2 (List.replicate 98 true))).lines.allOwned = true ∧
      (atPos 1 (live 2 (List.replicate 98 true))).seq.i < (configOf 2).n ∧
      (atPos 1 (live 2 (List.replicate 98 true))).pinsOk (2 + 48 * (configOf 2).n) :=
  ⟨rfl, rfl, by decide, pins_ok 2 98⟩

theorem witness_ControlCommandsSendOneFrame :
    (live 1 (List.replicate 50 true)).cfg = some (configOf 1) ∧ (live 1 (List.replicate 50 true)).lines.allOwned = true ∧
      (live 1 (List.replicate 50 true)).seq.i < (configOf 1).n ∧
      (live 1 (List.replicate 50 true)).pinsOk (2 + 48 * (configOf 1).n) :=
  ⟨rfl, rfl, by decide, pins_ok 1 50⟩

/-- V14: the 31st line write of `01 80`. -/
theorem witness_WireCommandCut :
    frameWord (.wRow0 0x80#8) = some (0x01#8, 0x80#8) ∧
    (live 1 (List.replicate 30 true ++ [false])).cfg = some (configOf 1) ∧
    (live 1 (List.replicate 30 true ++ [false])).lines.allOwned = true ∧
    (live 1 (List.replicate 30 true ++ [false])).seq.i < (configOf 1).n ∧
    (frameWrites (wireBuffer 1 0 0x01#8 0x80#8))[30]? = some ⟨.clk, .low, 1, 6, .clkLow⟩ ∧
    (live 1 (List.replicate 30 true ++ [false])).pinsOk 30 ∧
    (live 1 (List.replicate 30 true ++ [false])).pinAnswer 30 = false :=
  ⟨rfl, rfl, rfl, by decide, rfl, pins_cut 1 30⟩

/-- Each of the three preconditions broken alone; the position just outside the chain. -/
theorem witness_WireCommandPreconditions :
    frameWord .wPowerOn = some (0x0C#8, 0x01#8) ∧ State.reset.cfg = none ∧
    ({ live 1 [] with lines := State.reset.lines } : State).lines.allOwned = false ∧
    (live 1 []).lines.allOwned = true ∧ (configOf 1).n ≤ (atPos 1 (live 1 [])).seq.i := by decide

theorem witness_InitSucceeds :
    (sensor .uninitialized [true] []).sns = .uninitialized ∧
      (sensor .uninitialized [true] []).busWriteAnswer Config.sensorAddr [0xE1#8, 0x08#8, 0x00#8] = true := ⟨rfl, rfl⟩

theorem witness_InitFails :
    (sensor .uninitialized [false] []).sns = .uninitialized ∧
      (sensor .uninitialized [false] []).busWriteAnswer Config.sensorAddr [0xE1#8, 0x08#8, 0x00#8] = false := ⟨rfl, rfl⟩

theorem witness_SensorOperationsRefused :
    (sensor .undefined [] []).sns ≠ .uninitialized ∧ (sensor .undefined [] []).sns ≠ .ready ∧
      (sensor .ready [] []).sns ≠ .uninitialized ∧ State.reset.sns ≠ .ready := by decide

theorem witness_MeasureGivesReading :
    (sensor .ready [true] [some replyV1]).sns = .ready ∧
      (sensor .ready [true] [some replyV1]).busWriteAnswer Config.sensorAddr [0xAC#8, 0x33#8, 0x00#8] = true ∧
      (sensor .ready [true] [some replyV1]).busReadAnswer Config.sensorAddr = some replyV1 ∧
      replyV1.b0.getLsbD 3 = true := ⟨rfl, rfl, rfl, rfl⟩

theorem witness_MeasureUncalibrated :
    (sensor .ready [true] [some replyV7]).sns = .ready ∧
      (sensor .ready [true] [some replyV7]).busWriteAnswer Config.sensorAddr [0xAC#8, 0x33#8, 0x00#8] = true ∧
      (sensor .ready [true] [some replyV7]).busReadAnswer Config.sensorAddr = some replyV7 ∧
      replyV7.b0.getLsbD 3 = false := ⟨rfl, rfl, rfl, rfl⟩

/-- A write that fails, and a read that fails. -/
theorem witness_MeasureBusFails :
    (sensor .ready [false] []).sns = .ready ∧
      (sensor .ready [false] []).busWriteAnswer Config.sensorAddr [0xAC#8, 0x33#8, 0x00#8] = false ∧
      (sensor .ready [true] [none]).sns = .ready ∧
      (sensor .ready [true] [none]).busWriteAnswer Config.sensorAddr [0xAC#8, 0x33#8, 0x00#8] = true ∧
      (sensor .ready [true] [none]).busReadAnswer Config.sensorAddr = none := ⟨rfl, rfl, rfl, rfl, rfl⟩

theorem witness_SensorCommandsWriteThreeBytes :
    (sensor .uninitialized [true] []).busWriteAnswer Config.sensorAddr [0xE1#8, 0x08#8, 0x00#8] = true ∧
      (sensor .ready [true] []).busWriteAnswer Config.sensorAddr [0xAC#8, 0x33#8, 0x00#8] = true := ⟨rfl, rfl⟩

theorem witness_SensorCommandsFail :
    (sensor .uninitialized [false] []).busWriteAnswer Config.sensorAddr [0xE1#8, 0x08#8, 0x00#8] = false ∧
      (sensor .ready [false] []).busWriteAnswer Config.sensorAddr [0xAC#8, 0x33#8, 0x00#8] = false := ⟨rfl, rfl⟩

theorem witness_RepliesDecoded : replyV1.b0.getLsbD 3 = true ∧ replyV7.b0.getLsbD 3 = false := by decide

/-- Status bytes that agree in bit 3 alone, both ways. -/
theorem witness_OnlyCalibrationBitMatters :
    (0x08#8 : Byte).getLsbD 3 = (0xFF#8 : Byte).getLsbD 3 ∧ (0x00#8 : Byte).getLsbD 3 = (0xF7#8 : Byte).getLsbD 3 := by
  decide

/-- The counts on both sides of the last exact one. -/
theorem witness_HumidityScale_TemperatureScale :
    (671088#20 : Raw).toNat ≤ 671088 ∧ ¬(671089#20 : Raw).toNat ≤ 671088 := by decide

theorem live_inv : (live 1 []).Inv :=
  ⟨fun _ => ⟨rfl, 1, Nat.le_refl 1, by decide, rfl⟩, fun h => absurd h (by decide), fun h => absurd h (by decide), rfl, rfl⟩

/-- A live state, and a step from it that refuses a second NEW. -/
theorem witness_EveryStepKeepsInvariant :
    (live 1 []).Inv ∧ ({ live 1 [] with inbox := [0x01010300#32] } : State).Inv ∧
      step { live 1 [] with inbox := [0x01010300#32] } = .next ((live 1 []).answer (.refused .alreadyLive)) :=
  ⟨live_inv, ⟨live_inv.live, live_inv.absent, live_inv.ready, live_inv.idle⟩, rfl⟩

theorem witness_HostProgramNeverStops :
    ({ live 1 [] with inbox := [0x04000000#32] } : State).Inv ∧
      ({ live 1 [] with inbox := [0x04000000#32] } : State).HostProgram := by
  exact ⟨⟨live_inv.live, live_inv.absent, live_inv.ready, live_inv.idle⟩, rfl⟩

theorem witness_TraceOnlyGrows :
    step { sensor .ready [true] [none] with inbox := [0x11000000#32] } =
      .next (takeError .sensorMeasure
        { sensor .ready [true] [none] with
          seq := { SeqPos.idle with op := .sMeasure, phase := .read }
          tape := [.delay 100, .twWrite Config.sensorAddr [0xAC#8, 0x33#8, 0x00#8]]
          busWrites := ⟨[], 1⟩
          busReads := ⟨[], 1⟩ }) := by rfl

/-- A live display, an initialised sensor, host words. -/
theorem witness_NothingGoesBack :
    (live 1 []).disp = .live ∧ (sensor .ready [] []).sns ≠ .uninitialized ∧ (live 1 []).HostProgram ∧
      (sensor .ready [] []).HostProgram ∧ step (live 1 []) = .next (live 1 []) ∧
      step (sensor .ready [] []) = .next (sensor .ready [] []) :=
  ⟨rfl, by decide, rfl, rfl, rfl, rfl⟩

/-- One instruction of each side. -/
theorem witness_SubBlocksStaySeparate :
    exec .draw State.reset = .next (State.reset.answer (.refused .noDisplay)) ∧
      exec .sMeasure State.reset = .next (State.reset.answer (.refused .sensorNotReady)) := ⟨rfl, rfl⟩

theorem seen_follow : seenModules.canFollow 1 :=
  ⟨rfl, rfl, by decide, by
    intro m hm
    obtain rfl := List.eq_of_mem_replicate hm
    rfl⟩

/-- A chain with a doubtful pulse and bits of a cut frame in it, chip-select Low. -/
theorem witness_CompleteFrameReceived :
    0 < 1 ∧ ({ seenModules with cs := .low, chain := [some true, none], doubt := some 3 } : Observer).canFollow 1 :=
  ⟨by decide, seen_follow⟩

theorem witness_ImageAfterDraw :
    (live 1 (List.replicate 400 true)).disp = .live ∧ (live 1 (List.replicate 400 true)).cfg = some (configOf 1) ∧
      (live 1 (List.replicate 400 true)).lines.allOwned = true ∧ 1 ≤ (configOf 1).n ∧
      (live 1 (List.replicate 400 true)).pinsOk (8 * (configOf 1).n * (2 + 48 * (configOf 1).n)) ∧
      (live 1 (List.replicate 400 true)).modules.canFollow (configOf 1).n ∧
      (live 1 (List.replicate 400 true)).modules.imageDefined (configOf 1).n = true :=
  ⟨rfl, rfl, rfl, by decide, pins_ok 1 400, seen_follow, rfl⟩

theorem witness_BlankAfterNew :
    (bare (List.replicate 554 true)).disp = .absent ∧ (bare (List.replicate 554 true)).pinsOk (4 + 11 * 1 * (2 + 48 * 1)) ∧
      (bare (List.replicate 554 true)).modules.stuck = false ∧
      1 ≤ (bare (List.replicate 554 true)).modules.mods.length ∧
      ∀ m ∈ (bare (List.replicate 554 true)).modules.mods, m.rows.length = 8 :=
  ⟨rfl, bare_ok 554, rfl, by decide, seen_follow.2.2.2⟩

theorem witness_ClearBlanksTheModules :
    (live 1 (List.replicate 400 true)).disp = .live ∧ (live 1 (List.replicate 400 true)).cfg = some (configOf 1) ∧
      (live 1 (List.replicate 400 true)).lines.allOwned = true ∧ 1 ≤ (configOf 1).n ∧
      (live 1 (List.replicate 400 true)).pinsOk (8 * (configOf 1).n * (2 + 48 * (configOf 1).n)) ∧
      (live 1 (List.replicate 400 true)).modules.canFollow (configOf 1).n :=
  ⟨rfl, rfl, rfl, by decide, pins_ok 1 400, seen_follow⟩

end Sys2Proof.Tests
end

section
/-! The pixels and the frame buffer of DRAW (20_memory R56): which bits the fold of `rowByte` sets, where `frameBuffer` keeps
a row byte, and the obligation O22. -/

namespace Sys2Proof.Machine

/-- Columns own distinct bits of a row byte: the mask of column `d` has the bit of column `c` only for `c = d`. -/
theorem getLsbD_columnMask {c d : Nat} (hc : c < 8) (hd : d < 8) :
    (1#8 <<< (7 - d)).getLsbD (7 - c) = decide (c = d) := by
  rw [BitVec.getLsbD_shiftLeft, BitVec.getLsbD_one]
  grind

/-- The bit of column `c` after a fold that sets the bit of each lit column of a list: set before, or listed and lit. -/
theorem getLsbD_foldl_columnMask (lit : Nat → Prop) [DecidablePred lit] {c : Nat} (hc : c < 8) (cols : List Nat)
    (hcols : ∀ d ∈ cols, d < 8) (v : Byte) :
    (cols.foldl (fun v d => if lit d then v ||| (1#8 <<< (7 - d)) else v) v).getLsbD (7 - c) = true ↔
      v.getLsbD (7 - c) = true ∨ (c ∈ cols ∧ lit c) := by
  induction cols generalizing v with
  | nil => simp
  | cons d cols ih =>
    have hd : d < 8 := hcols d List.mem_cons_self
    rw [List.foldl_cons, ih fun e he => hcols e (List.mem_cons_of_mem d he)]
    by_cases hlit : lit d
    · rw [if_pos hlit, BitVec.getLsbD_or, getLsbD_columnMask hc hd]
      grind
    · rw [if_neg hlit]
      grind

/-- Column order of a row byte: bit `7 − c` is column `c` (42_display_operations R165). -/
theorem getLsbD_rowByte (p : Nat → Nat → Byte) (i y : Nat) {c : Nat} (hc : c < 8) :
    (rowByte p i y).getLsbD (7 - c) = true ↔ p (c + 8 * i) y ≠ 0 := by
  have hfold := getLsbD_foldl_columnMask (fun d => p (d + 8 * i) y ≠ 0) hc (List.range Config.cols)
    (fun d hd => List.mem_range.mp hd) 0x00#8
  have hmem : c ∈ List.range Config.cols := List.mem_range.mpr hc
  exact hfold.trans (by simp [hmem])

/-- On the canvas the frame buffer holds the row byte of its module and row. -/
@[simp] theorem fbByte_frameBuffer (p : Nat → Nat → Byte) {n i y : Nat} (hi : i < n) (hy : y < Config.rows) :
    fbByte (frameBuffer p n) i y = rowByte p i y := by
  simp [fbByte, frameBuffer, hi, hy]

/-- Settles O22: the frame buffer's byte is the row byte, whose bit `7 − c` is column `c`. -/
theorem pixelToBit : Obligations.PixelToBit := by
  intro p n i y c hi hy hc
  rw [fbByte_frameBuffer p hi hy]
  exact getLsbD_rowByte p i y hc

end Sys2Proof.Machine
end

section
/-! The two raw counts of a reply (43_sensor R213, R214): a count and its field of three bytes agree bit by bit, its
number is that of the field (45 R270), and the obligations O42 and O43. -/

namespace Sys2Proof.Machine

/-- Three bytes in a row, the first one on top, bit by bit. -/
theorem getLsbD_append_bytes (a b c : Byte) (i : Nat) :
    (a ++ b ++ c : BitVec 24).getLsbD i =
      if i < 8 then c.getLsbD i else if i < 16 then b.getLsbD (i - 8) else a.getLsbD (i - 16) := by
  show BitVec.getLsbD (w := 8 + 8 + 8) (a ++ b ++ c) i = _
  simp only [BitVec.getLsbD_append, Nat.sub_sub]
  grind

/-- Three bytes in a row, the first one on top, as a number. -/
theorem toNat_append_bytes (a b c : Byte) :
    (a ++ b ++ c : BitVec 24).toNat = a.toNat * 2 ^ 16 + b.toNat * 2 ^ 8 + c.toNat := by
  have happend (w : Nat) (x : BitVec w) (y : Byte) : (x ++ y).toNat = x.toNat * 2 ^ 8 + y.toNat := by
    rw [BitVec.toNat_append, ← Nat.shiftLeft_add_eq_or_of_lt y.isLt, Nat.shiftLeft_eq]
  show BitVec.toNat (w := 8 + 8 + 8) (a ++ b ++ c) = _
  rw [happend, happend]
  omega

/-- The humidity count is bits 23 to 4 of bytes 1 to 3 (43_sensor R213). -/
theorem assembleHumidity_eq_extractLsb' (r : Reply) :
    assembleHumidity r = (r.b1 ++ r.b2 ++ r.b3 : BitVec 24).extractLsb' 4 20 := by
  apply BitVec.eq_of_getLsbD_eq
  intro i hi
  rw [BitVec.getLsbD_extractLsb', getLsbD_append_bytes]
  simp only [assembleHumidity, BitVec.getLsbD_or, BitVec.getLsbD_shiftLeft, BitVec.getLsbD_ushiftRight,
    BitVec.getLsbD_setWidth]
  -- The byte that bit `i` comes from: the high nibble of byte 3, byte 2, or byte 1.
  by_cases hbyte3 : i < 4
  · grind
  · by_cases hbyte2 : i < 12
    · grind
    · grind

/-- The mask of R214 keeps bits 3 to 0. -/
theorem getLsbD_lowNibbleMask (i : Nat) : (0x0F#8).getLsbD i = decide (i < 4) := by
  have hmask : 0x0F#8 = (BitVec.allOnes 4).setWidth 8 := by decide
  rw [hmask, BitVec.getLsbD_setWidth, BitVec.getLsbD_allOnes]
  grind

/-- The temperature count is bits 19 to 0 of bytes 3 to 5 (43_sensor R214). -/
theorem assembleTemperature_eq_extractLsb' (r : Reply) :
    assembleTemperature r = (r.b3 ++ r.b4 ++ r.b5 : BitVec 24).extractLsb' 0 20 := by
  apply BitVec.eq_of_getLsbD_eq
  intro i hi
  rw [BitVec.getLsbD_extractLsb', getLsbD_append_bytes]
  simp only [assembleTemperature, BitVec.getLsbD_or, BitVec.getLsbD_shiftLeft, BitVec.getLsbD_setWidth,
    BitVec.getLsbD_and, getLsbD_lowNibbleMask]
  -- The byte that bit `i` comes from: byte 5, byte 4, or the low nibble of byte 3.
  by_cases hbyte5 : i < 8
  · grind
  · by_cases hbyte4 : i < 16
    · grind
    · grind

/-- The humidity count as the sum of 45 R270. -/
theorem assembleHumidity_toNat (r : Reply) :
    (assembleHumidity r).toNat = r.b1.toNat * 2 ^ 12 + r.b2.toNat * 2 ^ 4 + r.b3.toNat / 16 := by
  rw [assembleHumidity_eq_extractLsb', BitVec.extractLsb'_toNat, toNat_append_bytes, Nat.shiftRight_eq_div_pow]
  omega

/-- The temperature count as the sum of 45 R270. -/
theorem assembleTemperature_toNat (r : Reply) :
    (assembleTemperature r).toNat = r.b3.toNat % 16 * 2 ^ 16 + r.b4.toNat * 2 ^ 8 + r.b5.toNat := by
  rw [assembleTemperature_eq_extractLsb', BitVec.extractLsb'_toNat, toNat_append_bytes, Nat.shiftRight_zero]
  omega

/-- Settles O42: the model's definition is R213's shifts, and the field and the sum follow from the bits. -/
theorem humidityCount : Obligations.HumidityCount :=
  fun r => ⟨assembleHumidity_eq_extractLsb' r, rfl, assembleHumidity_toNat r⟩

/-- Settles O43: the model's definition is R214's mask and shifts, and the field and the sum follow from the bits. -/
theorem temperatureCount : Obligations.TemperatureCount :=
  fun r => ⟨assembleTemperature_eq_extractLsb' r, rfl, assembleTemperature_toNat r⟩

end Sys2Proof.Machine
end

section
/-! The four word formats (30_encoding): decoding and encoding are inverse to each other on the 22 rows of the opcode table,
which words each decoder rejects, the instruction of a wire command, and the obligations O1, O2, O3 and O6. -/

namespace Sys2Proof

/-! ### Decoding an encoded instruction -/

/-- The decoder of replies on a reply put together from its bytes (30_encoding R91, R96). -/
theorem decodeR48_wordOfReply (r : Reply) :
    decodeR48 (wordOfReply r) = if r.b0.getLsbD 3 then .ok (.r48Calibrated r) else .ok (.r48Uncalibrated r) := by
  rw [decodeR48, wordOfReply_calibrated, replyOfWord_wordOfReply]

/-- Settles O1, row by row: the fields of an encoded word are the ones it was put together from. -/
theorem decodeEncodeAgree : Obligations.DecodeEncodeAgree := by
  intro i hi
  cases i with
  | new count level =>
    have hcount : (countField count).toNat = count := countField_toNat (of_decide_eq_true hi)
    simp only [encode, decode, decodeH32, h32Word_fields, hcount]
    rfl
  | brightness level | clear | draw | sInit | sMeasure =>
    simp only [encode, decode, decodeH32, h32Word_fields]
    rfl
  | wNoop | wRow0 dat | wRow1 dat | wRow2 dat | wRow3 dat | wRow4 dat | wRow5 dat | wRow6 dat | wRow7 dat | wDecodeRaw
  | wIntensity level | wPowerOn =>
    simp only [encode, decode, decodeW16, w16Word_fields]
    rfl
  | twCmdInit | twCmdTrigger => rfl
  | r48Calibrated r => exact (decodeR48_wordOfReply r).trans (if_pos hi)
  | r48Uncalibrated r => exact (decodeR48_wordOfReply r).trans (if_neg (by simpa [wellFormed, Reply.isCalibrated] using hi))

/-! ### Encoding a decoded word -/

/-- A word the host decoder accepts is put together from the fields it was accepted for (30_encoding R85). -/
theorem encode_of_decodeH32 {w : H32} {i : Instr} (h : decodeH32 w = .ok i) : wellFormed i = true ∧ encode i = .h32 w := by
  simp only [decodeH32] at h
  split_ifs at h with hz hnew hbrightness hb hclear hab hdraw hab hinit hab hmeasure hab
  all_goals
    cases h
    have hword := h32Word_of_fields (not_not.mp hz)
  · refine ⟨decide_eq_true (h32A w).isLt, ?_⟩
    rw [encode, countField_of_byte, ← hnew, hword]
  · rw [encode, ← hbrightness, ← hb, hword]
    exact ⟨rfl, rfl⟩
  · rw [hclear, hab.1, hab.2] at hword
    exact ⟨rfl, congrArg Issued.h32 hword⟩
  · rw [hdraw, hab.1, hab.2] at hword
    exact ⟨rfl, congrArg Issued.h32 hword⟩
  · rw [hinit, hab.1, hab.2] at hword
    exact ⟨rfl, congrArg Issued.h32 hword⟩
  · rw [hmeasure, hab.1, hab.2] at hword
    exact ⟨rfl, congrArg Issued.h32 hword⟩

/-- A wire word is put together from given fields exactly when these are its own. -/
theorem eq_w16Word_iff {w : W16} {sel dat : Byte} : w = w16Word sel dat ↔ w16Sel w = sel ∧ w16Dat w = dat := by
  constructor
  · rintro rfl
    exact w16Word_fields sel dat
  · rintro ⟨rfl, rfl⟩
    exact (w16Word_of_fields w).symm

/-- A word the wire decoder accepts is put together from the fields it was accepted for (30_encoding R87). -/
theorem encode_of_decodeW16 {w : W16} {i : Instr} (h : decodeW16 w = .ok i) : wellFormed i = true ∧ encode i = .w16 w := by
  have hfields {sel dat : Byte} (hsel : w16Sel w = sel) (hdat : w16Dat w = dat) : Issued.w16 (w16Word sel dat) = .w16 w :=
    congrArg Issued.w16 (eq_w16Word_iff.mpr ⟨hsel, hdat⟩).symm
  simp only [decodeW16, ite_eq_iff, Except.ok.injEq, reduceCtorEq, and_false, or_false] at h
  rcases h with ⟨hnoop, hdat, rfl⟩ | ⟨-, ⟨h0, rfl⟩ | ⟨-, ⟨h1, rfl⟩ | ⟨-, ⟨h2, rfl⟩ | ⟨-, ⟨h3, rfl⟩ | ⟨-, ⟨h4, rfl⟩ |
    ⟨-, ⟨h5, rfl⟩ | ⟨-, ⟨h6, rfl⟩ | ⟨-, ⟨h7, rfl⟩ | ⟨-, ⟨hdecode, hdat, rfl⟩ | ⟨-, ⟨hintensity, rfl⟩ |
    ⟨-, hpower, hdat, rfl⟩⟩⟩⟩⟩⟩⟩⟩⟩⟩⟩
  · exact ⟨rfl, hfields hnoop hdat⟩
  · exact ⟨rfl, hfields h0 rfl⟩
  · exact ⟨rfl, hfields h1 rfl⟩
  · exact ⟨rfl, hfields h2 rfl⟩
  · exact ⟨rfl, hfields h3 rfl⟩
  · exact ⟨rfl, hfields h4 rfl⟩
  · exact ⟨rfl, hfields h5 rfl⟩
  · exact ⟨rfl, hfields h6 rfl⟩
  · exact ⟨rfl, hfields h7 rfl⟩
  · exact ⟨rfl, hfields hdecode hdat⟩
  · exact ⟨rfl, hfields hintensity rfl⟩
  · exact ⟨rfl, hfields hpower hdat⟩

/-- The two sensor commands are their own words (30_encoding R90). -/
theorem encode_of_decodeS24 {w : S24} {i : Instr} (h : decodeS24 w = .ok i) : wellFormed i = true ∧ encode i = .s24 w := by
  simp only [decodeS24] at h
  split_ifs at h with hinit htrigger
  · cases h
    exact ⟨rfl, congrArg Issued.s24 hinit.symm⟩
  · cases h
    exact ⟨rfl, congrArg Issued.s24 htrigger.symm⟩

/-- Every reply word is its six bytes, and its bit 43 selects the row (30_encoding R91, R96). -/
theorem encode_of_decodeR48 {w : R48} {i : Instr} (h : decodeR48 w = .ok i) : wellFormed i = true ∧ encode i = .r48 w := by
  have hword := wordOfReply_replyOfWord w
  have hcal : (replyOfWord w).isCalibrated = w.getLsbD 43 := by
    rw [Reply.isCalibrated, ← wordOfReply_calibrated, hword]
  rw [decodeR48] at h
  split_ifs at h with h43
  · cases h
    exact ⟨hcal.trans h43, congrArg Issued.r48 hword⟩
  · cases h
    exact ⟨by simpa [wellFormed, hcal] using h43, congrArg Issued.r48 hword⟩

/-- Settles O2, format by format. -/
theorem encodeDecodeAgree : Obligations.EncodeDecodeAgree := by
  intro q i h
  cases q with
  | h32 w => exact encode_of_decodeH32 h
  | w16 w => exact encode_of_decodeW16 h
  | s24 w => exact encode_of_decodeS24 h
  | r48 w => exact encode_of_decodeR48 h

/-! ### The words in the spec's numbers -/

/-- Settles O3: the words are encodings of their instructions, written out. -/
theorem specWordsDecode : Obligations.SpecWordsDecode := by
  have hnew (count level : Byte) : decode (.h32 (h32Word 0x01#8 count level)) = .ok (.new count.toNat level) := by
    rw [← decodeEncodeAgree (.new count.toNat level) (decide_eq_true count.isLt), encode, countField_of_byte]
  have hreply (r : Reply) :
      decode (.r48 (wordOfReply r)) = .ok (if r.b0.getLsbD 3 then .r48Calibrated r else .r48Uncalibrated r) := by
    rw [decode, decodeR48_wordOfReply, apply_ite Except.ok]
  have henc := decodeEncodeAgree
  exact ⟨hnew, fun level => henc (.brightness level) rfl, henc .clear rfl, henc .draw rfl, henc .sInit rfl,
    henc .sMeasure rfl, henc .wNoop rfl,
    fun row => ⟨henc (.wRow0 row) rfl, henc (.wRow1 row) rfl, henc (.wRow2 row) rfl, henc (.wRow3 row) rfl,
      henc (.wRow4 row) rfl, henc (.wRow5 row) rfl, henc (.wRow6 row) rfl, henc (.wRow7 row) rfl⟩,
    henc .wDecodeRaw rfl, fun level => henc (.wIntensity level) rfl, henc .wPowerOn rfl, henc .twCmdInit rfl,
    henc .twCmdTrigger rfl, fun b0 b1 b2 b3 b4 b5 => hreply ⟨b0, b1, b2, b3, b4, b5⟩,
    hnew 0x02#8 0x1F#8, henc (.brightness 0xFF#8) rfl, henc (.wRow4 0xC3#8) rfl,
    hreply ⟨0x98#8, 0x1E#8, 0xA2#8, 0x35#8, 0x22#8, 0xA0#8⟩⟩

end Sys2Proof

namespace Sys2Proof.Machine

/-! ### The instruction of a wire command -/

/-- The row of the opcode table a wire command belongs to (30_encoding R87, R96). -/
def Wire.instr : Wire → Instr
  | .row r d =>
    match r with
    | 0 => .wRow0 d
    | 1 => .wRow1 d
    | 2 => .wRow2 d
    | 3 => .wRow3 d
    | 4 => .wRow4 d
    | 5 => .wRow5 d
    | 6 => .wRow6 d
    | 7 => .wRow7 d
  | .decodeRaw => .wDecodeRaw
  | .intensity level => .wIntensity level
  | .powerOn => .wPowerOn

/-- A wire command's instruction is well formed and is encoded as the word its frame carries, with the select byte in the
spec's numbers. -/
theorem Wire.instr_word (v : Wire) :
    wellFormed v.instr = true ∧ encode v.instr = .w16 (w16Word v.sel v.dat) ∧ frameWord v.instr = some (v.sel, v.dat) := by
  cases v with
  | row r d => fin_cases r <;> exact ⟨rfl, rfl, rfl⟩
  | decodeRaw | intensity level | powerOn => exact ⟨rfl, rfl, rfl⟩

/-- The instructions that send a frame are the wire commands' instructions. -/
theorem Wire.exists_of_frameWord {i : Instr} {w : Byte × Byte} (h : frameWord i = some w) :
    ∃ v : Wire, i = v.instr ∧ w = (v.sel, v.dat) := by
  have hv : ∃ v : Wire, i = v.instr := by
    cases i with
    | wRow0 d => exact ⟨.row 0 d, rfl⟩
    | wRow1 d => exact ⟨.row 1 d, rfl⟩
    | wRow2 d => exact ⟨.row 2 d, rfl⟩
    | wRow3 d => exact ⟨.row 3 d, rfl⟩
    | wRow4 d => exact ⟨.row 4 d, rfl⟩
    | wRow5 d => exact ⟨.row 5 d, rfl⟩
    | wRow6 d => exact ⟨.row 6 d, rfl⟩
    | wRow7 d => exact ⟨.row 7 d, rfl⟩
    | wDecodeRaw => exact ⟨.decodeRaw, rfl⟩
    | wIntensity level => exact ⟨.intensity level, rfl⟩
    | wPowerOn => exact ⟨.powerOn, rfl⟩
    | _ => exact absurd h (by simp [frameWord])
  obtain ⟨v, rfl⟩ := hv
  exact ⟨v, rfl, Option.some.inj (h.symm.trans v.instr_word.2.2)⟩

/-- Settles O6: the word of a frame is the encoding of the command's instruction. -/
theorem framesCarryWireCommands : Obligations.FramesCarryWireCommands := by
  intro v
  obtain ⟨hwf, henc, hword⟩ := v.instr_word
  exact ⟨v.instr, henc ▸ decodeEncodeAgree v.instr hwf, hword⟩

end Sys2Proof.Machine
end

section
/-! One step (10_state R20): which words decode (30_encoding R85, R87), what a step does with a word that decodes and with one
that does not, and the obligations O4, O5, O7 to O10. -/

namespace Sys2Proof.Machine

/-! ### Which words decode -/

/-- The words that decode are the encodings of the well-formed instructions. -/
theorem decode_eq_ok_iff {q : Issued} {i : Instr} : decode q = .ok i ↔ wellFormed i = true ∧ encode i = q := by
  constructor
  · exact encodeDecodeAgree q i
  · rintro ⟨hwf, rfl⟩
    exact decodeEncodeAgree i hwf

theorem decode_cases (q : Issued) : (∃ i, decode q = .ok i) ∨ ∃ e, decode q = .error e := by
  cases decode q with
  | ok i => exact .inl ⟨i, rfl⟩
  | error e => exact .inr ⟨e, rfl⟩

/-- The reasons of 30_encoding R85 for which a host word is illegal. -/
def illegalH32 (w : H32) : Prop :=
  h32Opc w ∉ [0x01#8, 0x02#8, 0x03#8, 0x04#8, 0x10#8, 0x11#8] ∨ h32Z w ≠ 0x00#8 ∨
    (h32Opc w = 0x02#8 ∧ h32B w ≠ 0x00#8) ∨
    (h32Opc w ∈ [0x03#8, 0x04#8, 0x10#8, 0x11#8] ∧ (h32A w ≠ 0x00#8 ∨ h32B w ≠ 0x00#8))

/-- A host word is illegal for the reasons of R85 and for no other. -/
theorem decode_h32_iff (w : H32) : (∃ i, decode (.h32 w) = .ok i) ↔ ¬illegalH32 w := by
  constructor
  · rintro ⟨i, hi⟩
    obtain ⟨-, henc⟩ := decode_eq_ok_iff.mp hi
    cases i with
    | new _ _ | brightness _ | clear | draw | sInit | sMeasure =>
      cases henc
      simp [illegalH32, h32Word_fields]
    | _ => cases henc
  · intro h
    simp only [illegalH32, not_or, not_and, not_not] at h
    obtain ⟨hopc, hz, hb, hab⟩ := h
    simp only [List.mem_cons, List.not_mem_nil, or_false] at hopc
    have hword {i : Instr} (hwf : wellFormed i = true) (henc : encode i = .h32 (h32Word (h32Opc w) (h32A w) (h32B w))) :
        ∃ i, decode (.h32 w) = .ok i :=
      ⟨i, decode_eq_ok_iff.mpr ⟨hwf, henc.trans (congrArg Issued.h32 (h32Word_of_fields hz))⟩⟩
    rcases hopc with hopc | hopc | hopc | hopc | hopc | hopc
    · exact hword (i := .new (h32A w).toNat (h32B w)) (decide_eq_true (h32A w).isLt)
        (by rw [encode, countField_of_byte, hopc])
    · exact hword (i := .brightness (h32A w)) rfl (by rw [encode, hopc, hb hopc])
    all_goals obtain ⟨ha, hb⟩ := hab (by simp [hopc])
    · exact hword (i := .clear) rfl (by rw [encode, hopc, ha, hb])
    · exact hword (i := .draw) rfl (by rw [encode, hopc, ha, hb])
    · exact hword (i := .sInit) rfl (by rw [encode, hopc, ha, hb])
    · exact hword (i := .sMeasure) rfl (by rw [encode, hopc, ha, hb])

/-- The wire words that decode are those of 30_encoding R87. -/
theorem decode_w16_iff (w : W16) :
    (∃ i, decode (.w16 w) = .ok i) ↔
      w = 0x0000#16 ∨ (0x01#8 ≤ w16Sel w ∧ w16Sel w ≤ 0x08#8) ∨ w = 0x0900#16 ∨ w16Sel w = 0x0A#8 ∨ w = 0x0C01#16 := by
  constructor
  · rintro ⟨i, hi⟩
    obtain ⟨-, henc⟩ := decode_eq_ok_iff.mp hi
    cases i with
    | wNoop => cases henc; exact .inl rfl
    | wRow0 _ | wRow1 _ | wRow2 _ | wRow3 _ | wRow4 _ | wRow5 _ | wRow6 _ | wRow7 _ =>
      cases henc
      rw [(w16Word_fields _ _).1]
      exact .inr (.inl (by decide))
    | wDecodeRaw => cases henc; exact .inr (.inr (.inl rfl))
    | wIntensity _ => cases henc; exact .inr (.inr (.inr (.inl (w16Word_fields _ _).1)))
    | wPowerOn => cases henc; exact .inr (.inr (.inr (.inr rfl)))
    | _ => cases henc
  · have hwire (v : Wire) (hsel : w16Sel w = v.sel) (hdat : w16Dat w = v.dat) : ∃ i, decode (.w16 w) = .ok i :=
      ⟨v.instr, decode_eq_ok_iff.mpr ⟨v.instr_word.1, by rw [v.instr_word.2.1, eq_w16Word_iff.mpr ⟨hsel, hdat⟩]⟩⟩
    rintro (rfl | hrow | rfl | hintensity | rfl)
    · exact ⟨.wNoop, rfl⟩
    · have hlt : (w16Sel w).toNat - 1 < 8 := by bv_omega
      refine hwire (.row ⟨(w16Sel w).toNat - 1, hlt⟩ (w16Dat w)) ?_ rfl
      simp only [Wire.sel, Config.opRow, Config.opRow0]
      bv_omega
    · exact ⟨.wDecodeRaw, rfl⟩
    · exact hwire (.intensity (w16Dat w)) hintensity rfl
    · exact ⟨.wPowerOn, rfl⟩

/-! ### What a step does -/

/-- A step runs the instruction that the word it fetched decodes to. -/
theorem step_of_decode {s u : State} {q : Issued} {i : Instr} (hf : fetch s = some (q, u)) (hi : decode q = .ok i) :
    step s = exec i u := by
  simp only [step, hf, hi]

/-- A step rejects the word it fetched if it decodes to nothing. -/
theorem step_of_reject {s u : State} {q : Issued} {e : Reject} (hf : fetch s = some (q, u)) (he : decode q = .error e) :
    step s = rejectWord q u := by
  simp only [step, hf, he]

/-- Settles O8. -/
theorem stepRunsDecoded : Obligations.StepRunsDecoded :=
  fun _ _ => ⟨fun _ _ hb hw hi => step_of_decode (fetch_inbox hb hw) hi, fun _ hb hi => step_of_decode (fetch_bench hb) hi⟩

/-- Settles O9. -/
theorem stepIdlesWithoutWords : Obligations.StepIdlesWithoutWords := by
  intro s hb hw
  simp only [step, fetch, hb, hw]

/-- Settles O10: the word stands on the bench, which goes before the host's words. -/
theorem fetchedWordRuns : Obligations.FetchedWordRuns := by
  intro s nbits w q i hq hi
  have hplaced : s.withFetchWord nbits w = (s.withLinkFor q).onBench q := by simp only [State.withFetchWord, hq]
  rw [hplaced]
  exact step_of_decode (fetch_bench rfl) hi

/-- Settles O4: an illegal word is answered by `rejectWord`, every other word decodes. -/
theorem illegalHostWordRefused : Obligations.IllegalHostWordRefused := by
  intro s w rest hb hw
  split
  next hillegal =>
    rcases decode_cases (.h32 w) with hok | ⟨e, he⟩
    · exact absurd hillegal ((decode_h32_iff w).mp hok)
    · exact step_of_reject (fetch_inbox hb hw) he
  next hlegal => exact (decode_h32_iff w).mpr hlegal

/-- Settles O5: a word outside the table of R87 decodes to nothing and is then rejected by name. -/
theorem neverSentWordsRefused : Obligations.NeverSentWordsRefused := by
  intro s w hb
  split
  next hsent => exact (decode_w16_iff w).mpr hsent
  next hnever =>
    rcases decode_cases (.w16 w) with hok | ⟨e, he⟩
    · exact absurd ((decode_w16_iff w).mp hok) hnever
    · exact step_of_reject (fetch_bench hb) he

/-! ### Result words -/

/-- Settles O7: the codes of 30_encoding R84, result by result. -/
theorem resultWords : Obligations.ResultWords :=
  ⟨fun _ _ => rfl, rfl, rfl, rfl, rfl, rfl, rfl, rfl, fun _ => rfl⟩

end Sys2Proof.Machine
end

section
/-! Frames (40_serial_port): the place of each line write in a frame, the bytes of a transfer buffer, the lines after a frame,
how many events the operations emit and what of the pixel source DRAW reads; and the obligations O21, O23 to O26. -/

namespace Sys2Proof.Machine

/-! ### The line writes of a frame, by place -/

/-- The three writes of bit `k` stand at place `3·(7 − k)` of its byte: the most significant bit goes first. -/
theorem getElem?_byteWrites (b : Nat) (v : Byte) {k e : Nat} (hk : k < 8) (he : e < 3) :
    (byteWrites b v)[3 * (7 - k) + e]? = (bitWrites b v k)[e]? := by
  interval_cases k <;> interval_cases e <;> rfl

/-- The writes of byte `b` stand at place `24·b` of the bytes. -/
theorem getElem?_bytesWrites (first : Nat) {vs : List Byte} {b j : Nat} (hb : b < vs.length) (hj : j < 24) :
    (bytesWrites first vs)[24 * b + j]? = (byteWrites (first + b) (vs.getD b 0))[j]? := by
  induction vs generalizing first b with
  | nil => simp at hb
  | cons v vs ih =>
    rw [bytesWrites]
    cases b with
    | zero =>
      rw [Nat.mul_zero, Nat.zero_add, List.getElem?_append_left (by simpa using hj)]
      rfl
    | succ b =>
      rw [List.getElem?_append_right (by simp; omega), byteWrites_length,
        show 24 * (b + 1) + j - 24 = 24 * b + j by omega, ih (first + 1) (by simpa using hb), List.getD_cons_succ,
        Nat.add_assoc, Nat.add_comm 1]

/-- The three writes of bit `k` of byte `b` of a frame, after the chip-select. -/
theorem getElem?_frameWrites {buf : List Byte} {b k e : Nat} (hb : b < buf.length) (hk : k < 8) (he : e < 3) :
    (frameWrites buf)[1 + 24 * b + 3 * (7 - k) + e]? = (bitWrites b (buf.getD b 0) k)[e]? := by
  rw [frameWrites, show 1 + 24 * b + 3 * (7 - k) + e = 24 * b + (3 * (7 - k) + e) + 1 by omega, List.getElem?_cons_succ,
    List.getElem?_append_left (by rw [bytesWrites_length]; omega), getElem?_bytesWrites 0 hb (by omega), Nat.zero_add,
    getElem?_byteWrites b _ hk he]

/-- Settles O24. -/
theorem frameWritesInOrder : Obligations.FrameWritesInOrder := by
  intro buf
  refine ⟨frameWrites_length buf, rfl, ⟨buf.length - 1, 0, ?_⟩, fun b k hb hk => ?_⟩
  · rw [frameWrites, Nat.add_comm 1, List.getElem?_cons_succ, List.getElem?_append_right (by simp), bytesWrites_length,
      Nat.sub_self]
    rfl
  · exact ⟨getElem?_frameWrites (e := 0) hb hk (by decide), getElem?_frameWrites (e := 1) hb hk (by decide),
      getElem?_frameWrites (e := 2) hb hk (by decide)⟩

/-! ### The transfer buffer -/

/-- Settles O25: the word is written over a buffer of zeros. -/
theorem wordPlacedAtPosition : Obligations.WordPlacedAtPosition := by
  intro n i sel dat b hi
  refine ⟨wireBuffer_length n i sel dat, ?_⟩
  rw [wireBuffer, placeWord, noopBuffer_eq]
  by_cases hsel : b = 2 * i
  · subst hsel
    simp [List.getD_eq_getElem?_getD, hi]
  · by_cases hdat : b = 2 * i + 1
    · subst hdat
      have hlt : 2 * i + 1 < 2 * n := by omega
      simp [List.getD_eq_getElem?_getD, hlt]
    · simp only [List.getD_eq_getElem?_getD, List.getElem?_set_ne (Ne.symm hsel), List.getElem?_set_ne (Ne.symm hdat),
        if_neg hsel, if_neg hdat, List.getElem?_replicate]
      split <;> rfl

/-- The frame that addresses the last module of a chain ends with the data byte. -/
theorem wireBuffer_last (k : Nat) (sel dat : Byte) :
    wireBuffer (k + 1) k sel dat = (List.replicate (2 * k) 0x00#8 ++ [sel]) ++ [dat] := by
  rw [wireBuffer, placeWord, noopBuffer_eq, Nat.mul_succ, List.replicate_add, List.set_append_right _ _ (by simp),
    List.length_replicate, Nat.sub_self, List.set_append_right _ _ (by simp), List.length_replicate, Nat.add_sub_cancel_left]
  simp

/-! ### The lines after a frame -/

theorem bytesWrites_concat (b : Nat) (vs : List Byte) (v : Byte) :
    bytesWrites b (vs ++ [v]) = bytesWrites b vs ++ byteWrites (b + vs.length) v := by
  induction vs generalizing b with
  | nil => simp [bytesWrites]
  | cons w vs ih => simp [bytesWrites, ih, Nat.add_assoc, Nat.add_comm 1]

/-- Line writes give line events. -/
theorem map_event_isSet {ws : List LineWrite} {e : Event} (h : e ∈ ws.map LineWrite.event) : ∃ l v, e = .set l v := by
  obtain ⟨w, -, rfl⟩ := List.mem_map.mp h
  exact ⟨w.line, w.level, rfl⟩

/-- The last byte of a frame and the chip-select after it determine every level (40_serial_port R118). -/
theorem follow_lastByte (ls : Lines) (v : Byte) :
    (ls.follow (byteEvents v)).follow [.set .cs .high] =
      ⟨⟨ls.data.owned, if v.getLsbD 0 then .high else .low⟩, ⟨ls.clk.owned, .low⟩, ⟨ls.cs.owned, .high⟩⟩ := by
  have hbit : lineLevelOf (bitLevel (v.getLsbD 0)) = if v.getLsbD 0 then .high else .low := by
    cases v.getLsbD 0 <;> rfl
  rw [← hbit]
  rfl

/-- What the last byte of a frame and the chip-select after it leave does not depend on the levels before them. -/
theorem follow_frame (ls : Lines) (buf : List Byte) (last : Byte) :
    ls.follow (frameEvents (buf ++ [last])) =
      ⟨⟨ls.data.owned, if last.getLsbD 0 then .high else .low⟩, ⟨ls.clk.owned, .low⟩, ⟨ls.cs.owned, .high⟩⟩ := by
  have hsplit : frameEvents (buf ++ [last]) =
      ((⟨.cs, .low, 0, 7, .csLow⟩ :: bytesWrites 0 buf).map LineWrite.event ++ byteEvents last) ++ [.set .cs .high] := by
    rw [frameEvents, frameWrites, bytesWrites_concat, List.map_cons, List.map_append, List.map_append, byteWrites_events]
    simp [LineWrite.event]
  obtain ⟨hdata, hclk, hcs⟩ := Lines.follow_owned
    (fun _ => map_event_isSet (ws := ⟨.cs, .low, 0, 7, .csLow⟩ :: bytesWrites 0 buf)) ls
  rw [hsplit, Lines.follow_append, Lines.follow_append, follow_lastByte, hdata, hclk, hcs]

/-- Settles O26. -/
theorem linesAfterFrame : Obligations.LinesAfterFrame := fun ls buf last => follow_frame ls buf last

/-! ### How many events the operations emit -/

theorem rowFrames_events_length (n : Nat) (d : Nat → Nat → Byte) :
    (framesEvents (rowFrames n d)).length = 8 * n * (2 + 48 * n) := by
  rw [← sendBuffers_eachRow n .none d, sendBuffers_events_length, eachRow_length]

theorem newSends_length (n : Nat) (level : Byte) : (newSends n level).length = 11 * n := by
  simp only [newSends, List.length_append, eachModule_length, eachRow_length]
  omega

theorem newFrames_events_length (n : Nat) (level : Byte) :
    (framesEvents (newFrames n level)).length = 11 * n * (2 + 48 * n) := by
  rw [← sendBuffers_newSends, sendBuffers_events_length, newSends_length]

theorem brightnessFrames_events_length (n : Nat) (level : Byte) :
    (framesEvents (brightnessFrames n level)).length = n * (2 + 48 * n) := by
  have hsends : sendBuffers n (eachModule .none (.intensity level) n) = brightnessFrames n level :=
    sendBuffers_eachModule n .none (.intensity level)
  rw [← hsends, sendBuffers_events_length, eachModule_length]

/-- Settles O21. -/
theorem eventCounts : Obligations.EventCounts := by
  intro n level p
  refine ⟨?_, brightnessFrames_events_length n level, rowFrames_events_length n _, rowFrames_events_length n _⟩
  rw [List.length_append, newFrames_events_length]
  rfl

/-! ### What DRAW reads of the pixel source -/

/-- The frames of row writes depend on the row bytes of the chain alone. -/
theorem rowFrames_congr {n : Nat} {d e : Nat → Nat → Byte} (h : ∀ i r, i < n → r < 8 → d i r = e i r) :
    rowFrames n d = rowFrames n e := by
  refine List.flatMap_congr fun i hi => List.map_congr_left fun r hr => ?_
  rw [h i r (List.mem_range.mp hi) (List.mem_range.mp hr)]

/-- A row byte depends on the eight pixels of its columns alone. -/
theorem rowByte_congr {p q : Nat → Nat → Byte} {i y : Nat} (h : ∀ c, c < 8 → p (c + 8 * i) y = q (c + 8 * i) y) :
    rowByte p i y = rowByte q i y := by
  refine List.foldl_ext _ _ _ fun v c hc => ?_
  rw [h c (List.mem_range.mp hc)]

/-- Settles O23. -/
theorem drawReadsTheCanvasOnly : Obligations.DrawReadsTheCanvasOnly := by
  intro n p q h
  refine ⟨rowFrames_congr fun i r hi hr => rowByte_congr fun c hc => h _ _ (by omega) hr, ?_⟩
  exact rowFrames_congr fun i r _ _ => rfl

end Sys2Proof.Machine
end

section
/-! BRIGHTNESS, CLEAR and DRAW (42_display_operations R162 to R167): each is the wire commands of its frames, sent whole or
cut at the first line write that fails; and the obligations O16 to O20. -/

namespace Sys2Proof.Machine

/-! ### How an operation that sends frames ends -/

/-- All frames whole: they were sent and the answer is `Ok`. -/
theorem conclude_sendAll_ok {ws : List Send} {s : State} (hok : s.pinsOk (ws.length * (2 + 48 * s.moduleCount))) :
    conclude (State.answer .ok) (sendAll ws s) =
      (s.emitted (framesEvents (sendBuffers s.moduleCount ws))).ended .ok := by
  rw [← sendBuffers_events_length] at hok
  obtain ⟨q, r, -, hsend⟩ := sendAll_ok hok
  rw [hsend]
  rfl

/-- Write `m` of frame `f` fails: what came before it was sent, its line is lost, and the answer is Data. -/
theorem conclude_sendAll_cut {ws : List Send} {s : State} {f m : Nat} {buf : List Byte} {x : LineWrite}
    (hbuf : (sendBuffers s.moduleCount ws)[f]? = some buf) (hx : (frameWrites buf)[m]? = some x)
    (hok : s.pinsOk (f * (2 + 48 * s.moduleCount) + m)) (hf : s.pinAnswer (f * (2 + 48 * s.moduleCount) + m) = false) :
    ∃ w, ws[f]? = some w ∧
      conclude (State.answer .ok) (sendAll ws s) =
        ((s.emitted ((framesEvents (sendBuffers s.moduleCount ws)).take (f * (2 + 48 * s.moduleCount) + m))).lost
          x.line).failed .data (w.position s.seq.op x) := by
  obtain ⟨w, r, hw, hsend⟩ := sendAll_cut_at hbuf hx hok hf
  refine ⟨w, hw, ?_⟩
  rw [hsend]
  rfl

/-! ### The three operations as wire commands -/

/-- A live display that can send: CFG has a value and the lines are owned (40_serial_port R114). -/
structure State.Linked (s : State) (c : Cfg) : Prop where
  disp : s.disp = .live
  cfg : s.cfg = some c
  lines : s.lines.allOwned = true

/-- The state in which an operation on the display sends its first frame: the sequencer and the operation's own registers are
set, and DRAW has taken its pixel source. -/
def State.prepared (i : Instr) (q : SeqPos) (r : Scratch) (s : State) : State :=
  { s with seq := q, scratch := r, canvases := if i = .draw then s.canvases.skip 1 else s.canvases }

/-- An operation on a linked display sends the frames of `displayFrames`, each at the coordinates of `displayCut`. -/
theorem exec_display {i : Instr} {s : State} {c : Cfg} {bufs : List (List Byte)} (hs : s.Linked c)
    (hi : displayFrames s.pixels c.n i = some bufs) :
    ∃ ws q r, sendBuffers c.n ws = bufs ∧
      (∀ f w x, ws[f]? = some w → w.position q.op x = displayCut f x i) ∧
      exec i s = .next (conclude (State.answer .ok) (sendAll ws (s.prepared i q r))) := by
  have hn : s.moduleCount = c.n := State.moduleCount_of_cfg hs.cfg
  cases i with
  | brightness level =>
    cases hi
    refine ⟨eachModule .none (.intensity level) c.n, { SeqPos.idle with op := .brightness }, s.scratch,
      sendBuffers_eachModule .., fun f w x hw => ?_, ?_⟩
    · obtain ⟨hp, hi, hr⟩ := eachModule_at hw
      rw [Send.position, hp, hi, hr, displayCut]
    · rw [← hn]
      exact onDisplay_live hs.disp hs.cfg hs.lines
  | clear =>
    cases hi
    refine ⟨eachRow .none (fun _ _ => 0x00#8) c.n, { SeqPos.idle with op := .clear }, s.scratch,
      sendBuffers_eachRow .., fun f w x hw => ?_, ?_⟩
    · obtain ⟨hp, hi, hr⟩ := eachRow_at hw
      rw [Send.position, hp, hi, hr, displayCut]
    · rw [← hn]
      exact onDisplay_live hs.disp hs.cfg hs.lines
  | draw =>
    cases hi
    have hsends : sendBuffers c.n (eachRow .write (fbByte (frameBuffer s.pixels c.n)) c.n) = drawFrames c.n s.pixels := by
      rw [sendBuffers_eachRow]
      exact rowFrames_congr fun i r hi hr => fbByte_frameBuffer s.pixels hi hr
    refine ⟨_, { SeqPos.idle with op := .draw, phase := .build }, { s.scratch with fb := frameBuffer s.pixels c.n },
      hsends, fun f w x hw => ?_, ?_⟩
    · obtain ⟨hp, hi, hr⟩ := eachRow_at hw
      rw [Send.position, hp, hi, hr, displayCut]
    · rw [← hn]
      exact (onDisplay_live (body := fun t => writeFrames (buildFrames t)) hs.disp hs.cfg hs.lines).trans rfl
  | _ => exact absurd hi (by simp [displayFrames])

/-- An operation on a linked display with every line write passing. -/
theorem exec_display_ok {i : Instr} {s : State} {c : Cfg} {bufs : List (List Byte)} (hs : s.Linked c)
    (hi : displayFrames s.pixels c.n i = some bufs) (hok : s.pinsOk (bufs.length * (2 + 48 * c.n))) :
    exec i s =
      .next { s.emitted (framesEvents bufs) with
        scratch := Scratch.empty
        seq := SeqPos.idle
        results := s.results ++ [.ok]
        canvases := if i = .draw then s.canvases.skip 1 else s.canvases } := by
  obtain ⟨ws, q, r, rfl, -, hexec⟩ := exec_display hs hi
  have hlen : (sendBuffers c.n ws).length = ws.length := List.length_map _
  have hn : (s.prepared i q r).moduleCount = c.n := State.moduleCount_of_cfg hs.cfg
  rw [hexec, conclude_sendAll_ok (by rw [hn, ← hlen]; exact hok), hn]
  rfl

/-- An operation on a linked display whose line write `m` of frame `f` fails. -/
theorem exec_display_cut {i : Instr} {s : State} {c : Cfg} {bufs : List (List Byte)} {buf : List Byte} {f m : Nat}
    {x : LineWrite} (hs : s.Linked c) (hi : displayFrames s.pixels c.n i = some bufs) (hbuf : bufs[f]? = some buf)
    (hx : (frameWrites buf)[m]? = some x) (hok : s.pinsOk (f * (2 + 48 * c.n) + m))
    (hf : s.pinAnswer (f * (2 + 48 * c.n) + m) = false) :
    exec i s =
      .next { (s.emitted ((framesEvents bufs).take (f * (2 + 48 * c.n) + m))).lost x.line with
        scratch := Scratch.empty
        seq := SeqPos.idle
        results := s.results ++ [.err .data]
        lastCut := displayCut f x i
        canvases := if i = .draw then s.canvases.skip 1 else s.canvases } := by
  obtain ⟨ws, q, r, rfl, hpos, hexec⟩ := exec_display hs hi
  have hn : (s.prepared i q r).moduleCount = c.n := State.moduleCount_of_cfg hs.cfg
  obtain ⟨w, hw, hcut⟩ := conclude_sendAll_cut (s := s.prepared i q r) (by rw [hn]; exact hbuf) hx (by rw [hn]; exact hok)
    (by rw [hn]; exact hf)
  rw [hexec, hcut, hn, ← hpos f w x hw]
  rfl

/-! ### The obligations -/

theorem moduleFrames_length (n : Nat) (sel dat : Byte) : (moduleFrames n sel dat).length = n := by simp [moduleFrames]

theorem rowFrames_length (n : Nat) (d : Nat → Nat → Byte) : (rowFrames n d).length = 8 * n := by
  rw [← sendBuffers_eachRow n .none d, sendBuffers, List.length_map, eachRow_length]

/-- Settles O16. -/
theorem brightnessSucceeds : Obligations.BrightnessSucceeds := by
  intro level s c hd hc hl hok
  exact exec_display_ok (i := .brightness level) ⟨hd, hc, hl⟩ rfl (by rwa [brightnessFrames, moduleFrames_length])

/-- Settles O17. -/
theorem clearSucceeds : Obligations.ClearSucceeds := by
  intro s c hd hc hl hok
  exact exec_display_ok (i := .clear) ⟨hd, hc, hl⟩ rfl (by rwa [clearFrames, rowFrames_length])

/-- Settles O18. -/
theorem drawSucceeds : Obligations.DrawSucceeds := by
  intro s c hd hc hl hok
  exact exec_display_ok (i := .draw) ⟨hd, hc, hl⟩ rfl (by rwa [drawFrames, rowFrames_length])

/-- Settles O19. -/
theorem displayOperationCut : Obligations.DisplayOperationCut := by
  rintro i s c bufs buf f m j x hd hc hl hi hbuf hx rfl hok hf
  exact exec_display_cut ⟨hd, hc, hl⟩ hi hbuf hx hok hf

/-- An operation on the display is refused while there is none (42_display_operations R167). -/
theorem exec_display_absent {i : Instr} {s : State} {p : Nat → Nat → Byte} {n : Nat} {bufs : List (List Byte)}
    (hi : displayFrames p n i = some bufs) (hd : s.disp = .absent) : exec i s = .next (s.answer (.refused .noDisplay)) := by
  cases i with
  | brightness level | clear | draw => exact if_pos hd
  | _ => exact absurd hi (by simp [displayFrames])

/-- Settles O20. -/
theorem refusedWithoutDisplay : Obligations.RefusedWithoutDisplay := by
  rintro i s hd (rfl | rfl | ⟨level, rfl⟩)
  all_goals exact exec_display_absent (p := s.pixels) (n := 0) rfl hd

end Sys2Proof.Machine
end

section
/-! NEW (42_display_operations R160, R161): the four questions of its phase CLAIM, its frames, and what each failure leaves;
and the obligations O11 to O15 and O59. -/

namespace Sys2Proof.Machine

/-! ### The checks of NEW -/

/-- Settles O15. -/
theorem newRefusedWhileLive : Obligations.NewRefusedWhileLive :=
  fun _ _ _ hd => if_pos hd

/-- A NEW of a count out of range ends before it claims anything. -/
theorem exec_new_count {n : Nat} {level : Byte} {s : State} (hd : s.disp = .absent) (hn : n < 1 ∨ Config.nMax < n) :
    exec (.new n level) s = .next (takeError .countExceeded (s.begin .new)) := by
  simp only [exec, execNew, hd, reduceCtorEq, if_false, if_pos hn]

/-- A NEW of a count in range constructs the display. -/
theorem exec_new_range {n : Nat} {level : Byte} {s : State} (hd : s.disp = .absent) (h1 : 1 ≤ n) (h16 : n ≤ 16) :
    exec (.new n level) s =
      .next (conclude (fun t => (t.withDisp .live).answer .ok) (constructDisplay n level (s.begin .new))) := by
  have hn : ¬(n < 1 ∨ Config.nMax < n) := by
    rw [Config.nMax]
    omega
  simp only [exec, execNew, hd, reduceCtorEq, if_false, if_neg hn]

/-- Settles O11: between operations there are no registers of an operation to lose. -/
theorem newRejectsCount : Obligations.NewRejectsCount := by
  intro n level s hd hn hscratch hseq
  rw [exec_new_count hd hn, takeError_eq_failed, State.failed, ← hscratch]
  rcases s with ⟨_, _, _, _, _, _, _, seq, _, _, _, _, _, _, _, _⟩
  obtain rfl : seq = SeqPos.idle := hseq
  rfl

/-- Settles O59: the word of a count out of range decodes to a count out of range. -/
theorem issuedCountIsRejected : Obligations.IssuedCountIsRejected := by
  intro n level s hb hw hd hn hscratch hseq
  have hissue : s.issue (.new n level) = { s with inbox := [h32Word 0x01#8 (countField n) level] } := by
    show { s with inbox := s.inbox ++ [h32Word 0x01#8 (countField n) level] } = _
    rw [hw, List.nil_append]
  have hdecode : decode (.h32 (h32Word 0x01#8 (countField n) level)) = .ok (.new (countField n).toNat level) := by
    refine decode_eq_ok_iff.mpr ⟨decide_eq_true (countField n).isLt, ?_⟩
    rw [encode, countField_of_byte]
  have hfield : (countField n).toNat < 1 ∨ 16 < (countField n).toNat := by
    rcases hn with h0 | h16
    · obtain rfl : n = 0 := by omega
      exact .inl (by decide)
    · exact .inr (countField_above h16)
  have hfetch : fetch { s with inbox := [h32Word 0x01#8 (countField n) level] } =
      some (.h32 (h32Word 0x01#8 (countField n) level), s) := by
    refine (fetch_inbox (s := { s with inbox := [_] }) hb rfl).trans ?_
    rw [← hw]
  rw [hissue, step_of_decode (u := s) hfetch hdecode]
  exact newRejectsCount _ level s hd hfield hscratch hseq

/-! ### The phase CLAIM -/

/-- The state in which a NEW of `n` modules has made its three claims. -/
def State.claimedAll (n : Nat) (s : State) : State :=
  { s with
    lines := s.lines.follow claimEvents
    pins := s.pins.skip 4
    tape := claimEvents.reverse ++ s.tape
    modules := s.modules.watch n claimEvents }

/-- The device opens and the three lines are claimed. -/
theorem claimAll_ok (n : Nat) {s : State} (hok : s.pinsOk 4) : claimAll s = Run.ok (s.claimedAll n) := by
  rw [claimAll, openDevice_ok (hok 0 (by decide)), Run.ok_andThen, claimLine_ok n (by simpa using hok 1 (by decide)),
    Run.ok_andThen, claimLine_ok n (by simpa using hok 2 (by decide)), Run.ok_andThen,
    claimLine_ok n (by simpa using hok 3 (by decide))]
  simp only [State.claimed, State.askPin, Feed.skip_skip]
  rfl

/-- The state in which question `k` of the phase CLAIM has failed: the claims before it were made, and a failed claim gives
every line back; opening the device had none to give back. -/
def State.claimFailed (n k : Nat) (s : State) : State :=
  { s with
    lines := if k = 0 then s.lines else (s.lines.follow (claimEvents.take (k - 1))).released
    tape := (claimEvents.take (k - 1)).reverse ++ s.tape
    pins := s.pins.skip (k + 1)
    modules := if k = 0 then s.modules else (s.modules.watch n (claimEvents.take (k - 1))).onRelease }

/-- Question `k` of the phase CLAIM fails: the device, DATA, CS or CLK. -/
theorem claimAll_fail (n : Nat) {s : State} {k : Nat} (hk : k < 4) (hok : s.pinsOk k) (hf : s.pinAnswer k = false) :
    claimAll s = Run.raise .connection (s.claimFailed n k) := by
  rw [claimAll]
  rcases k with _ | _ | _ | _ | k
  · rw [openDevice_fail hf]
    rfl
  · rw [openDevice_ok (hok 0 (by decide)), Run.ok_andThen, claimLine_fail (by simpa using hf)]
    simp only [State.claimFailed, State.askPin, State.release, Feed.skip_skip]
    rfl
  · rw [openDevice_ok (hok 0 (by decide)), Run.ok_andThen, claimLine_ok n (by simpa using hok 1 (by decide)), Run.ok_andThen,
      claimLine_fail (by simpa using hf)]
    simp only [State.claimFailed, State.claimed, State.askPin, State.release, Feed.skip_skip]
    rfl
  · rw [openDevice_ok (hok 0 (by decide)), Run.ok_andThen, claimLine_ok n (by simpa using hok 1 (by decide)), Run.ok_andThen,
      claimLine_ok n (by simpa using hok 2 (by decide)), Run.ok_andThen, claimLine_fail (by simpa using hf)]
    simp only [State.claimFailed, State.claimed, State.askPin, State.release, Feed.skip_skip]
    rfl
  · omega

/-- Settles O13. -/
theorem newClaimFails : Obligations.NewClaimFails := by
  intro n level s k hd h1 h16 hk hok hf
  rw [exec_new_range hd h1 h16, constructDisplay,
    claimAll_fail n (s := (s.begin .new).inPhase .claim) hk hok hf]
  rfl

/-! ### The sending phases -/

/-- The state in which a NEW of `n` modules sends its first frame: the claims are made and CFG is written. -/
def State.linkOpened (n : Nat) (s : State) : State :=
  { s with
    cfg := some (configOf n)
    lines := s.lines.follow claimEvents
    seq := { SeqPos.idle with op := .new, phase := .claim }
    tape := claimEvents.reverse ++ s.tape
    pins := s.pins.skip 4
    modules := s.modules.watch n claimEvents }

/-- After its claims a NEW sends its frames, and gives everything up if one is cut. -/
theorem constructDisplay_of_claims {n : Nat} {level : Byte} {s : State} (hok : s.pinsOk 4) :
    constructDisplay n level (s.begin .new) = (sendAll (newSends n level) (s.linkOpened n)).onRaise abandonDisplay := by
  rw [constructDisplay, claimAll_ok n (s := (s.begin .new).inPhase .claim) hok, Run.ok_andThen]
  rfl

/-- A NEW whose frames were all sent: the display is live. -/
def State.displayLive (s : State) : State :=
  { s with disp := .live, scratch := Scratch.empty, seq := SeqPos.idle, results := s.results ++ [.ok] }

/-- A NEW whose frames were cut: the lines are given back, CFG has no value and there is no display. -/
def State.displayAbandoned (cut : SeqPos) (s : State) : State :=
  { s with
    cfg := none
    disp := .absent
    lines := s.lines.released
    scratch := Scratch.empty
    seq := SeqPos.idle
    results := s.results ++ [.err .data]
    lastCut := cut
    modules := s.modules.onRelease }

theorem conclude_new_ok (q : SeqPos) (r : Scratch) (s : State) :
    conclude (fun t => (t.withDisp .live).answer .ok) ((Run.ok ((s.withSeq q).withScratch r)).onRaise abandonDisplay) =
      s.displayLive := rfl

theorem conclude_new_cut (q : SeqPos) (r : Scratch) (s : State) :
    conclude (fun t => (t.withDisp .live).answer .ok)
        ((Run.raise .data ((s.withSeq q).withScratch r)).onRaise abandonDisplay) =
      s.displayAbandoned q := rfl

@[simp] theorem State.linkOpened_pinAnswer (n : Nat) (s : State) (j : Nat) :
    (s.linkOpened n).pinAnswer j = s.pinAnswer (4 + j) := Feed.peek_skip _ _ _ _

/-- The frames of NEW end with the byte of the level, so that the lines are left as one frame leaves them. -/
theorem follow_newFrames {n : Nat} (hn : 1 ≤ n) (level : Byte) (ls : Lines) :
    (ls.follow claimEvents).follow (framesEvents (newFrames n level)) =
      ⟨⟨true, if level.getLsbD 0 then .high else .low⟩, ⟨true, .low⟩, ⟨true, .high⟩⟩ := by
  obtain ⟨k, rfl⟩ : ∃ k, n = k + 1 := ⟨n - 1, by omega⟩
  obtain ⟨bufs, hlast⟩ : ∃ bufs, newFrames (k + 1) level =
      bufs ++ [(List.replicate (2 * k) 0x00#8 ++ [0x0A#8]) ++ [level]] := by
    rw [← wireBuffer_last, newFrames, brightnessFrames, moduleFrames.eq_1 (k + 1) 0x0A#8, List.range_succ, List.map_append,
      ← List.append_assoc]
    exact ⟨_, rfl⟩
  obtain ⟨hdata, hclk, hcs⟩ := Lines.follow_owned (fun _ => framesEvents_isSet (bufs := bufs)) (ls.follow claimEvents)
  have hevents : framesEvents (newFrames (k + 1) level) =
      framesEvents bufs ++ frameEvents ((List.replicate (2 * k) 0x00#8 ++ [0x0A#8]) ++ [level]) := by
    simp only [hlast, framesEvents, List.flatMap_append, List.flatMap_cons, List.flatMap_nil, List.append_nil]
  rw [hevents, Lines.follow_append, follow_frame, hdata, hclk, hcs]
  rfl

/-- A NEW with every answer ok sends its frames and makes the display live. -/
theorem exec_new_ok {n : Nat} {level : Byte} {s : State} (hd : s.disp = .absent) (h1 : 1 ≤ n) (h16 : n ≤ 16)
    (hok : s.pinsOk (4 + 11 * n * (2 + 48 * n))) :
    exec (.new n level) s = .next ((s.linkOpened n).emitted (framesEvents (newFrames n level))).displayLive := by
  have hsends : (s.linkOpened n).pinsOk (framesEvents (sendBuffers n (newSends n level))).length := by
    intro j hj
    rw [sendBuffers_events_length, newSends_length] at hj
    rw [State.linkOpened_pinAnswer]
    exact hok (4 + j) (Nat.add_lt_add_left hj 4)
  obtain ⟨q, r, -, hsend⟩ := sendAll_ok (s := s.linkOpened n) hsends
  have hmc : (s.linkOpened n).moduleCount = n := rfl
  rw [exec_new_range hd h1 h16, constructDisplay_of_claims fun j hj => hok j (Nat.lt_add_right _ hj), hsend, conclude_new_ok,
    hmc, sendBuffers_newSends]

/-- Settles O12. -/
theorem newSucceeds : Obligations.NewSucceeds := by
  intro n level s hd h1 h16 hok
  have htape : (claimEvents ++ framesEvents (newFrames n level)).reverse ++ s.tape =
      (framesEvents (newFrames n level)).reverse ++ (claimEvents.reverse ++ s.tape) := by
    rw [List.reverse_append, List.append_assoc]
  rw [exec_new_ok hd h1 h16 hok, ← follow_newFrames h1 level s.lines, htape, ← Feed.skip_skip,
    ← newFrames_events_length n level]
  rfl

/-- A line write of a frame has as many events of the operation before it as its number among all writes. -/
theorem length_take_framesEvents {n f m : Nat} {ws : List Send} {buf : List Byte} {x : LineWrite}
    (hbuf : (sendBuffers n ws)[f]? = some buf) (hx : (frameWrites buf)[m]? = some x) :
    ((framesEvents (sendBuffers n ws)).take (f * (2 + 48 * n) + m)).length = f * (2 + 48 * n) + m := by
  obtain ⟨hf, -⟩ := List.getElem?_eq_some_iff.mp hbuf
  obtain ⟨hm, -⟩ := List.getElem?_eq_some_iff.mp hx
  rw [frameWrites_length, sendBuffers_frame_length buf (List.mem_of_getElem? hbuf)] at hm
  have hframes : (f + 1) * (2 + 48 * n) ≤ (sendBuffers n ws).length * (2 + 48 * n) := Nat.mul_le_mul_right _ hf
  rw [Nat.succ_mul, sendBuffers, List.length_map] at hframes
  rw [List.length_take, sendBuffers_events_length]
  omega

/-- A NEW whose line write `m` of frame `f` fails gives the display up, cut at that write. -/
theorem exec_new_cut {n : Nat} {level : Byte} {s : State} {f m : Nat} {buf : List Byte} {x : LineWrite}
    (hd : s.disp = .absent) (h1 : 1 ≤ n) (h16 : n ≤ 16) (hbuf : (newFrames n level)[f]? = some buf)
    (hx : (frameWrites buf)[m]? = some x) (hok : s.pinsOk (4 + (f * (2 + 48 * n) + m)))
    (hf : s.pinAnswer (4 + (f * (2 + 48 * n) + m)) = false) :
    exec (.new n level) s =
      .next ((((s.linkOpened n).emitted ((framesEvents (newFrames n level)).take (f * (2 + 48 * n) + m))).lost
        x.line).displayAbandoned (newCut n f x)) := by
  have hmc : (s.linkOpened n).moduleCount = n := rfl
  rw [← sendBuffers_newSends] at hbuf
  obtain ⟨w, r, hw, hsend⟩ := sendAll_cut_at (s := s.linkOpened n) hbuf hx
    (fun i hi => (State.linkOpened_pinAnswer n s i).trans (hok (4 + i) (Nat.add_lt_add_left hi 4)))
    ((State.linkOpened_pinAnswer n s _).trans hf)
  rw [exec_new_range hd h1 h16, constructDisplay_of_claims fun j hj => hok j (Nat.lt_add_right _ hj), hsend,
    conclude_new_cut, hmc, sendBuffers_newSends, ← newSends_at x hw]
  rfl

/-- Settles O14. -/
theorem newCutBySendingFailure : Obligations.NewCutBySendingFailure := by
  rintro n level s f m j buf x hd h1 h16 hbuf hx rfl hok hf
  have hlen := length_take_framesEvents (n := n) (sendBuffers_newSends n level ▸ hbuf) hx
  rw [sendBuffers_newSends] at hlen
  have hpins : s.pins.skip (5 + (f * (2 + 48 * n) + m)) = ((s.pins.skip 4).skip (f * (2 + 48 * n) + m)).skip 1 := by
    rw [Feed.skip_skip, Feed.skip_skip]
    congr 1
    omega
  rw [exec_new_cut hd h1 h16 hbuf hx hok hf, Lines.follow_append, List.reverse_append, List.append_assoc, hpins, hd]
  generalize (framesEvents (newFrames n level)).take (f * (2 + 48 * n) + m) = events at hlen ⊢
  rw [← hlen]
  rfl

end Sys2Proof.Machine
end

section
/-! The wire commands run alone (41_display_wire_commands R130 to R134): each is one frame at the sequencer's position,
sent whole or cut, or a stop where a precondition of the frame does not hold; and the obligations O27 to O31. -/

namespace Sys2Proof.Machine

/-- The instruction of a wire command sends that command alone. -/
theorem exec_wire (v : Wire) (s : State) : exec v.instr s = sendAlone v s := by
  cases v with
  | row r d => fin_cases r <;> rfl
  | decodeRaw | intensity level | powerOn => rfl

/-- The sequencer stands at a position of a chain whose lines are owned (40_serial_port R114, R115). -/
structure State.Addressed (s : State) (c : Cfg) : Prop where
  cfg : s.cfg = some c
  lines : s.lines.allOwned = true
  position : s.seq.i < c.n

/-- At a position of the chain a wire command is its frame. -/
theorem exec_wire_addressed {v : Wire} {s : State} {c : Cfg} (hs : s.Addressed c) :
    exec v.instr s = .next (conclude id (wireCommand v s)) := by
  rw [exec_wire, sendAlone, positionFault_none hs.cfg hs.lines hs.position]
  rfl

/-- A wire command alone with every line write passing: one whole frame. -/
theorem exec_wire_ok {v : Wire} {s : State} {c : Cfg} (hs : s.Addressed c) (hok : s.pinsOk (2 + 48 * c.n)) :
    exec v.instr s =
      .next { s.emitted (frameEvents (wireBuffer c.n s.seq.i v.sel v.dat)) with
        scratch := Scratch.empty
        seq := SeqPos.idle } := by
  have hn : s.moduleCount = c.n := State.moduleCount_of_cfg hs.cfg
  have hlen : (frameEvents (wireBuffer c.n s.seq.i v.sel v.dat)).length = 2 + 48 * c.n := by
    rw [frameEvents_length, wireBuffer_length]
    omega
  obtain ⟨q, r, -, hsend⟩ := wireCommand_ok (w := v) (s := s) (by rwa [hn, hlen])
  rw [exec_wire_addressed hs, hsend, hn]
  rfl

/-- A wire command alone whose line write `j` fails. -/
theorem exec_wire_cut {v : Wire} {s : State} {c : Cfg} {j : Nat} {w : LineWrite} (hs : s.Addressed c)
    (hw : (frameWrites (wireBuffer c.n s.seq.i v.sel v.dat))[j]? = some w) (hok : s.pinsOk j)
    (hf : s.pinAnswer j = false) :
    exec v.instr s =
      .next { (s.emitted ((frameEvents (wireBuffer c.n s.seq.i v.sel v.dat)).take j)).lost w.line with
        scratch := Scratch.empty
        seq := SeqPos.idle
        results := s.results ++ [.err .data]
        lastCut := { s.seq with b := w.b, k := w.k, s := w.sub } } := by
  have hn : s.moduleCount = c.n := State.moduleCount_of_cfg hs.cfg
  obtain ⟨r, hsend⟩ := wireCommand_cut (w := v) (s := s) (by rwa [hn]) hok hf
  rw [exec_wire_addressed hs, hsend, hn]
  rfl

/-- Settles O27. -/
theorem rowCommandsSendOneFrame : Obligations.RowCommandsSendOneFrame := by
  intro dat s c hc hl hi hok x hx
  have hrow (r : Fin 8) := exec_wire_ok (v := .row r dat) ⟨hc, hl, hi⟩ hok
  simp only [List.mem_cons, List.not_mem_nil, or_false] at hx
  rcases hx with rfl | rfl | rfl | rfl | rfl | rfl | rfl | rfl
  · exact hrow 0
  · exact hrow 1
  · exact hrow 2
  · exact hrow 3
  · exact hrow 4
  · exact hrow 5
  · exact hrow 6
  · exact hrow 7

/-- Settles O28. -/
theorem controlCommandsSendOneFrame : Obligations.ControlCommandsSendOneFrame := by
  intro level s c hc hl hi hok x hx
  simp only [List.mem_cons, List.not_mem_nil, or_false] at hx
  rcases hx with rfl | rfl | rfl
  · exact exec_wire_ok (v := .decodeRaw) ⟨hc, hl, hi⟩ hok
  · exact exec_wire_ok (v := .intensity level) ⟨hc, hl, hi⟩ hok
  · exact exec_wire_ok (v := .powerOn) ⟨hc, hl, hi⟩ hok

/-- Settles O29. -/
theorem noopChangesNothing : Obligations.NoopChangesNothing := fun _ => rfl

/-- Settles O30. -/
theorem wireCommandCut : Obligations.WireCommandCut := by
  intro i sel dat s c j w hi hc hl hpos hw hok hf
  obtain ⟨v, rfl, hword⟩ := Wire.exists_of_frameWord hi
  obtain ⟨rfl, rfl⟩ := Prod.mk.inj hword
  exact exec_wire_cut ⟨hc, hl, hpos⟩ hw hok hf

/-- Where a precondition of its frame does not hold, a wire command alone stops. -/
theorem exec_wire_fault {v : Wire} {s : State} {f : Fault} (hf : positionFault s = some f) : exec v.instr s = .fault f := by
  rw [exec_wire, sendAlone, hf]
  rfl

/-- Settles O31. -/
theorem wireCommandPreconditions : Obligations.WireCommandPreconditions := by
  intro i w s hi
  obtain ⟨v, rfl, -⟩ := Wire.exists_of_frameWord hi
  refine ⟨fun hc => ?_, fun c hc hl => ?_, fun c hc hl hpos => ?_⟩
  · exact exec_wire_fault (by simp only [positionFault, linkFault, hc])
  · exact exec_wire_fault (by simp [positionFault, linkFault, hc, hl])
  · exact exec_wire_fault (by simp [positionFault, linkFault, hc, hl, State.moduleCount, Nat.not_lt.mpr hpos])

end Sys2Proof.Machine
end

section
/-! The sensor (43_sensor R201 to R212): what its two operations, its two commands and a reply do for each answer of the bus;
and the obligations O32 to O41. -/

namespace Sys2Proof.Machine

/-! ### S_INIT -/

/-- On an uninitialised sensor S_INIT is its two stages (43_sensor R205). -/
theorem exec_sInit {s : State} (hs : s.sns = .uninitialized) :
    exec .sInit s =
      .next (conclude (State.answer .ok) ((stageCmd (s.begin .sInit)).andThen fun t => Run.ok (stageSettle t))) := if_pos hs

/-- Settles O32. -/
theorem initSucceeds : Obligations.InitSucceeds := by
  intro s hs hw
  rw [exec_sInit hs, stageCmd_ok (s := s.begin .sInit) hw, Run.ok_andThen, stageSettle_eq]
  rfl

/-- Settles O33. -/
theorem initFails : Obligations.InitFails := by
  intro s hs hw
  rw [exec_sInit hs, stageCmd_fail (s := s.begin .sInit) hw, Run.raise_andThen]
  rfl

/-! ### S_MEASURE -/

/-- On a ready sensor S_MEASURE is its stages (43_sensor R206). -/
theorem exec_sMeasure {s : State} (hs : s.sns = .ready) :
    exec .sMeasure s =
      .next (conclude answerReading
        (((stageTrigger (s.begin .sMeasure)).andThen fun t => stageRead (stageConvert t)).andThen decodeReplyStages)) :=
  if_pos hs

/-- The state in which S_MEASURE reads its reply: the trigger is written and the conversion time is over. -/
def State.measuring (s : State) : State :=
  { s with
    seq := { SeqPos.idle with op := .sMeasure, phase := .convert }
    tape := .delay 100 :: .twWrite Config.sensorAddr [0xAC#8, 0x33#8, 0x00#8] :: s.tape
    busWrites := s.busWrites.skip 1 }

/-- S_MEASURE after a trigger that was written. -/
theorem exec_sMeasure_triggered {s : State} (hs : s.sns = .ready)
    (hw : s.busWriteAnswer Config.sensorAddr Config.cmdTrigger = true) :
    exec .sMeasure s = .next (conclude answerReading ((stageRead s.measuring).andThen decodeReplyStages)) := by
  rw [exec_sMeasure hs, stageTrigger_ok (s := s.begin .sMeasure) hw, Run.ok_andThen, stageConvert_eq]
  rfl

/-- Settles O35. -/
theorem measureGivesReading : Obligations.MeasureGivesReading := by
  intro s r hs hw hr hcal
  rw [exec_sMeasure_triggered hs hw, stageRead_ok (s := s.measuring) hr, Run.ok_andThen, decodeReplyStages_ok hcal]
  rfl

/-- Settles O36. -/
theorem measureUncalibrated : Obligations.MeasureUncalibrated := by
  intro s r hs hw hr hcal
  rw [exec_sMeasure_triggered hs hw, stageRead_ok (s := s.measuring) hr, Run.ok_andThen, decodeReplyStages_fail hcal]
  rfl

/-- Settles O37. -/
theorem measureBusFails : Obligations.MeasureBusFails := by
  intro s hs
  constructor
  · intro hw
    rw [exec_sMeasure hs, stageTrigger_fail (s := s.begin .sMeasure) hw, Run.raise_andThen, Run.raise_andThen]
    rfl
  · intro hw hr
    rw [exec_sMeasure_triggered hs hw, stageRead_fail (s := s.measuring) hr, Run.raise_andThen]
    rfl

/-- Settles O34. -/
theorem sensorOperationsRefused : Obligations.SensorOperationsRefused :=
  fun _ => ⟨fun hs => if_neg hs, fun hs => if_neg hs⟩

/-! ### The commands and the reply alone -/

/-- Settles O38. -/
theorem sensorCommandsWriteThreeBytes : Obligations.SensorCommandsWriteThreeBytes := by
  intro s
  constructor
  · intro hw
    rw [exec, execTwCmdInit, stageCmd_ok hw]
    rfl
  · intro hw
    rw [exec, execTwCmdTrigger, stageTrigger_ok hw]
    rfl

/-- Settles O39. -/
theorem sensorCommandsFail : Obligations.SensorCommandsFail := by
  intro s
  constructor
  · intro hw
    rw [exec, execTwCmdInit, stageCmd_fail hw]
    rfl
  · intro hw
    rw [exec, execTwCmdTrigger, stageTrigger_fail hw]
    rfl

/-- Both rows of a reply run the stages STATUS to SCALE on it; its calibration bit alone decides how they end
(43_sensor R212). -/
theorem exec_reply (r : Reply) (s : State) :
    exec (.r48Uncalibrated r) s = exec (.r48Calibrated r) s ∧
      exec (.r48Calibrated r) s =
        .next (if r.b0.getLsbD 3 then s.ended (.reading (scaleT (assembleTemperature r)) (scaleH (assembleHumidity r)))
          else s.failed .uncalibrated { s.seq with phase := .decodeReply }) := by
  refine ⟨rfl, ?_⟩
  rw [exec, execR48Calibrated]
  split
  next hcal =>
    rw [decodeReplyStages_ok (s := s.receive r) hcal]
    rfl
  next hcal =>
    rw [decodeReplyStages_fail (s := s.receive r) (Bool.not_eq_true _ ▸ hcal)]
    rfl

/-- Settles O40. -/
theorem repliesDecoded : Obligations.RepliesDecoded := by
  intro s r
  obtain ⟨hrow, hexec⟩ := exec_reply r s
  constructor
  · intro hcal
    rw [hexec, if_pos hcal]
    rfl
  · intro hcal
    rw [hrow, hexec, hcal]
    rfl

/-- Settles O41: STATUS is R211's bits, and of the first byte of a reply the stages use bit 3 alone. -/
theorem onlyCalibrationBitMatters : Obligations.OnlyCalibrationBitMatters := by
  refine ⟨fun s => rfl, fun s a b b1 b2 b3 b4 b5 hab => ?_⟩
  have hexec : exec (.r48Calibrated ⟨a, b1, b2, b3, b4, b5⟩) s = exec (.r48Calibrated ⟨b, b1, b2, b3, b4, b5⟩) s := by
    rw [(exec_reply _ s).2, (exec_reply _ s).2, hab]
    rfl
  exact ⟨hexec, hexec⟩

end Sys2Proof.Machine
end

section
/-! The scaled values (43_sensor R215, R216): one rounding for each operation, of which only the product by the scale changes
a value, and that one by a single bit; and the obligations O44 and O45. -/

namespace Sys2Proof.Machine

/-! ### Values -/

/-- The rational number a dyadic rational stands for. -/
def Dyad.value (d : Dyad) : Rat := d.num * 2 ^ d.exp

/-- The same value with `j` more places below the point. -/
theorem Dyad.value_mul_two_pow (a e : Int) (j : Nat) : (Dyad.mk (a * 2 ^ j) (e - j)).value = a * (2 : Rat) ^ e := by
  have hpow : (2 : Rat) ^ j * (2 : Rat) ^ (e - j : Int) = (2 : Rat) ^ e := by
    rw [← zpow_natCast, ← zpow_add₀ two_ne_zero]
    congr 1
    omega
  rw [Dyad.value]
  push_cast
  rw [mul_assoc, hpow]

/-- The pattern of a value of at most 24 significant bits, well inside the normal range, stands for it; zero is `+0.0`. -/
theorem Dyad.bits_value {d : Dyad} (hm : d.num.natAbs < 2 ^ 24) (hlo : -125 ≤ d.exp) (hhi : d.exp ≤ 104) :
    f32Ordinary d.bits ∧ f32Value d.bits = d.value := by
  by_cases h0 : d.num = 0
  · have hbits : d.bits = 0 := by simp [Dyad.bits, h0]
    refine ⟨.inl hbits, ?_⟩
    rw [hbits, Dyad.value, h0]
    simp [f32Value]
  · have hlen := bitLength_le hm
    exact (bits_of_normal h0 hm (by omega) (by omega)).symm

/-! ### The product and the quotient -/

/-- The product of the scale, a multiple of 25, and a raw count: 24 significant bits hold it up to 671088. -/
theorem scaleStepwise_exact {t raw : Nat} (hraw : raw ≤ 671088) :
    ∃ j k : Nat, j + k = t ∧ 25 * raw * 2 ^ j < 2 ^ 24 ∧
      scaleStepwise (25 * 2 ^ t) raw = ⟨(25 * raw : Nat) * 2 ^ j, t - 20 - j⟩ := by
  have hcount : fl (Dyad.ofNat raw) = Dyad.ofNat raw := fl_exact (by simp [Dyad.ofNat]; omega) (by simp [Dyad.ofNat])
  have hprod : (Dyad.ofNat raw).mulNat (25 * 2 ^ t) = ⟨(25 * raw * 2 ^ t : Nat), 0⟩ := by
    rw [Dyad.mulNat, Dyad.ofNat]
    congr 1
    push_cast
    ring
  obtain ⟨k, hk, hexp, hnum, hlt⟩ := fl_of_dvd (d := ⟨(25 * raw * 2 ^ t : Nat), 0⟩) (m := 25 * raw) (t := t) rfl (by omega)
    (by simp)
  obtain ⟨j, rfl⟩ := Nat.exists_eq_add_of_le' hk
  have hfl : fl ⟨(25 * raw * 2 ^ (j + k) : Nat), 0⟩ = ⟨(25 * raw * 2 ^ j : Nat), k⟩ := by
    have hcancel : (fl ⟨(25 * raw * 2 ^ (j + k) : Nat), 0⟩).num = (25 * raw * 2 ^ j : Nat) := by
      refine mul_right_cancel₀ (b := (2 : Int) ^ k) (by positivity) (hnum.trans ?_)
      push_cast
      ring
    rw [← hcancel, show (k : Int) = (fl ⟨(25 * raw * 2 ^ (j + k) : Nat), 0⟩).exp by rw [hexp]; exact (Int.zero_add _).symm]
  rw [hfl, Int.natAbs_natCast] at hlt
  refine ⟨j, k, rfl, hlt, ?_⟩
  rw [scaleStepwise, hcount, hprod, hfl, Dyad.divPow2, fl_exact (by rwa [Int.natAbs_natCast]) (by simp only; omega)]
  congr 1
  push_cast
  ring

/-- Above 671088 the product has one bit too many, and that bit is rounded half to even. -/
theorem scaleStepwise_rounded {t raw : Nat} (hraw : 671088 < raw) (hlt : raw < 2 ^ 20) :
    scaleStepwise (25 * 2 ^ t) raw = ⟨halfToEven (25 * raw), (t + 1 : Int) - 20⟩ := by
  have hcount : fl (Dyad.ofNat raw) = Dyad.ofNat raw := fl_exact (by simp [Dyad.ofNat]; omega) (by simp [Dyad.ofNat])
  have hlen : bitLength (25 * 2 ^ t * raw) = 24 + t + 1 := by
    rw [show 25 * 2 ^ t * raw = 25 * raw * 2 ^ t by ring]
    refine bitLength_eq ?_ ?_
    · rw [pow_add]
      exact Nat.mul_le_mul_right _ (by omega)
    · rw [show 2 ^ (24 + t + 1) = 2 ^ 25 * 2 ^ t by ring]
      exact Nat.mul_lt_mul_of_pos_right (by omega) (Nat.two_pow_pos t)
  have hprod : fl ((Dyad.ofNat raw).mulNat (25 * 2 ^ t)) = ⟨halfToEven (25 * raw), t + 1⟩ := by
    have hd : (Dyad.ofNat raw).mulNat (25 * 2 ^ t) = ⟨(25 * 2 ^ t * raw : Nat), 0⟩ := by simp [Dyad.mulNat, Dyad.ofNat]
    have hplace : lastPlace ⟨(25 * 2 ^ t * raw : Nat), 0⟩ = t + 1 := by
      simp only [lastPlace, Int.natAbs_natCast, hlen]
      omega
    have hsign : ((25 * 2 ^ t * raw : Nat) : Int).sign = 1 :=
      Int.sign_eq_one_of_pos (by exact_mod_cast Nat.mul_pos (by positivity) (by omega))
    rw [hd, fl, hplace, if_neg (show ¬(t + 1 : Int) ≤ 0 by omega), hsign, Int.natAbs_natCast, one_mul,
      show ((t + 1 : Int) - 0).toNat = t + 1 by omega, show 25 * 2 ^ t * raw = 2 ^ t * (25 * raw) by ring, rneShift_half]
  have hhalf : halfToEven (25 * raw) < 2 ^ 24 := by
    rw [halfToEven]
    split <;> omega
  rw [scaleStepwise, hcount, hprod]
  exact fl_exact (by simpa [Dyad.divPow2] using hhalf) (by simp only [Dyad.divPow2]; omega)

/-! ### Humidity -/

theorem scaleH_eq (raw : Raw) : scaleH raw = (scaleStepwise (25 * 2 ^ 2) raw.toNat).bits := by
  rw [show 25 * 2 ^ 2 = 100 by norm_num]
  rfl

theorem halfToEven_lt {raw : Nat} (h : raw < 2 ^ 20) : halfToEven (25 * raw) < 2 ^ 24 := by
  rw [halfToEven]
  split <;> omega

/-- Settles O44. -/
theorem humidityScale : Obligations.HumidityScale := by
  intro raw
  have hlt : raw.toNat < 2 ^ 20 := raw.isLt
  rw [scaleH_eq]
  split
  next hraw =>
    obtain ⟨j, k, hjk, hm, hscale⟩ := scaleStepwise_exact (t := 2) hraw
    rw [hscale]
    obtain ⟨hord, hval⟩ := Dyad.bits_value (d := ⟨(25 * raw.toNat : Nat) * 2 ^ j, (2 : Nat) - 20 - j⟩)
      (by simpa [Int.natAbs_mul, Int.natAbs_pow] using hm) (by simp only; omega) (by simp only; omega)
    refine ⟨hord, ?_⟩
    rw [hval, Dyad.value_mul_two_pow]
    push_cast
    norm_num
    ring
  next hraw =>
    rw [scaleStepwise_rounded (Nat.not_le.mp hraw) hlt]
    obtain ⟨hord, hval⟩ := Dyad.bits_value (d := ⟨halfToEven (25 * raw.toNat), ((2 : Nat) + 1 : Int) - 20⟩)
      (by simpa using halfToEven_lt hlt) (by simp) (by simp)
    refine ⟨hord, ?_⟩
    rw [hval, Dyad.value]
    norm_num
    ring

/-! ### Temperature -/

theorem scaleT_eq (raw : Raw) : scaleT raw = (fl ((scaleStepwise (25 * 2 ^ 3) raw.toNat).subNat 50)).bits := by
  rw [show 25 * 2 ^ 3 = 200 by norm_num]
  rfl

/-- The offset of 50 taken from a value with `p` places below the point. -/
theorem Dyad.subNat_below {num exp : Int} {p : Nat} (c : Nat) (hp : exp = -p) :
    (Dyad.mk num exp).subNat c = ⟨num - c * 2 ^ p, -p⟩ := by
  subst hp
  simp [Dyad.subNat]

/-- Rounding a value of at most 24 significant bits changes neither the value nor what its pattern stands for. -/
theorem fl_bits_value {a e : Int} {j : Nat} (ha : a.natAbs < 2 ^ 24) (hlo : -125 ≤ e - j) (hhi : e ≤ 104) :
    f32Ordinary (fl ⟨a * 2 ^ j, e - j⟩).bits ∧ f32Value (fl ⟨a * 2 ^ j, e - j⟩).bits = a * (2 : Rat) ^ e := by
  obtain ⟨k, hk, hexp, hnum, hlt⟩ := fl_of_dvd (d := ⟨a * 2 ^ j, e - j⟩) (m := a.natAbs) (t := j)
    (by simp [Int.natAbs_mul, Int.natAbs_pow]) ha (by simp only; omega)
  simp only at hexp hnum
  obtain ⟨hord, hval⟩ := Dyad.bits_value hlt (by rw [hexp]; omega) (by rw [hexp]; omega)
  refine ⟨hord, ?_⟩
  have hshift := Dyad.value_mul_two_pow (fl ⟨a * 2 ^ j, e - j⟩).num (fl ⟨a * 2 ^ j, e - j⟩).exp k
  rw [hnum, hexp, Int.add_sub_cancel, Dyad.value_mul_two_pow] at hshift
  rw [hval, hshift, Dyad.value, hexp]

/-- Settles O45. -/
theorem temperatureScale : Obligations.TemperatureScale := by
  intro raw
  have hlt : raw.toNat < 2 ^ 20 := raw.isLt
  rw [scaleT_eq]
  split
  next hraw =>
    obtain ⟨j, k, hjk, -, hscale⟩ := scaleStepwise_exact (t := 3) hraw
    have hdiff : (scaleStepwise (25 * 2 ^ 3) raw.toNat).subNat 50 =
        ⟨((25 * raw.toNat : Nat) - 50 * 2 ^ 17) * 2 ^ j, -17 - j⟩ := by
      rw [hscale, Dyad.subNat_below (p := 17 + j) 50 (by omega)]
      congr 1
      · push_cast
        ring
      · push_cast
        ring
    rw [hdiff]
    obtain ⟨hord, hval⟩ := fl_bits_value (a := (25 * raw.toNat : Nat) - 50 * 2 ^ 17) (e := -17) (j := j) (by omega) (by omega)
      (by omega)
    refine ⟨hord, hval.trans ?_⟩
    push_cast
    norm_num
    ring
  next hraw =>
    have hdiff : (scaleStepwise (25 * 2 ^ 3) raw.toNat).subNat 50 =
        ⟨((halfToEven (25 * raw.toNat) : Int) - 50 * 2 ^ 16) * 2 ^ 0, -16 - (0 : Nat)⟩ := by
      rw [scaleStepwise_rounded (Nat.not_le.mp hraw) hlt, Dyad.subNat_below (p := 16) 50 (by norm_num)]
      simp
    have hhalf := halfToEven_lt hlt
    rw [hdiff]
    obtain ⟨hord, hval⟩ := fl_bits_value (a := (halfToEven (25 * raw.toNat) : Int) - 50 * 2 ^ 16) (e := -16) (j := 0)
      (by omega) (by omega) (by omega)
    refine ⟨hord, hval.trans ?_⟩
    push_cast
    norm_num
    ring

end Sys2Proof.Machine
end

section
/-! The families of instructions, and the conditions under which each instruction of a family ends the way it does: every
later case analysis of an instruction goes through the lemmas of this part. -/

namespace Sys2Proof.Machine

/-! ### Families -/

/-- BRIGHTNESS, CLEAR and DRAW: the instructions that send frames on a live display. -/
def sendsFrames (i : Instr) : Prop := ∀ p n, ∃ bufs, displayFrames p n i = some bufs

/-- An instruction is NEW, an operation on the display, a wire command, W_NOOP, or one for the sensor. -/
theorem instr_families {P : Instr → Prop} (hnew : ∀ n level, P (.new n level)) (hdisplay : ∀ i, sendsFrames i → P i)
    (hwire : ∀ v : Wire, P v.instr) (hnoop : P .wNoop) (hsensor : ∀ i, touchesLink i = false → P i) (i : Instr) : P i := by
  cases i with
  | new n level => exact hnew n level
  | brightness level | clear | draw => exact hdisplay _ fun _ _ => ⟨_, rfl⟩
  | wNoop => exact hnoop
  | wRow0 d => exact hwire (.row 0 d)
  | wRow1 d => exact hwire (.row 1 d)
  | wRow2 d => exact hwire (.row 2 d)
  | wRow3 d => exact hwire (.row 3 d)
  | wRow4 d => exact hwire (.row 4 d)
  | wRow5 d => exact hwire (.row 5 d)
  | wRow6 d => exact hwire (.row 6 d)
  | wRow7 d => exact hwire (.row 7 d)
  | wDecodeRaw => exact hwire .decodeRaw
  | wIntensity level => exact hwire (.intensity level)
  | wPowerOn => exact hwire .powerOn
  | sInit | sMeasure | twCmdInit | twCmdTrigger | r48Calibrated r | r48Uncalibrated r => exact hsensor _ rfl

/-! ### Sent whole or cut -/

/-- Write `m` of frame `f` of `bufs` is `x`, and it is the first question that fails; `before` other questions come before the
first write. -/
structure State.CutAt (s : State) (before n : Nat) (bufs : List (List Byte)) (f m : Nat) (x : LineWrite) : Prop where
  write : ∃ buf, bufs[f]? = some buf ∧ (frameWrites buf)[m]? = some x
  pass : s.pinsOk (before + (f * (2 + 48 * n) + m))
  fail : s.pinAnswer (before + (f * (2 + 48 * n) + m)) = false

/-- Frames for a chain of `n` modules are all sent, or the questions before them or one of their writes fails. -/
theorem pinsOk_or_cutAt (s : State) (before : Nat) {n : Nat} {bufs : List (List Byte)} (hlen : ∀ b ∈ bufs, b.length = 2 * n) :
    s.pinsOk (before + bufs.length * (2 + 48 * n)) ∨ (∃ k, k < before ∧ s.pinsOk k ∧ s.pinAnswer k = false) ∨
      ∃ f m x, s.CutAt before n bufs f m x := by
  rcases pinsOk_cases s (before + bufs.length * (2 + 48 * n)) with hok | ⟨j, hj, hok, hf⟩
  · exact .inl hok
  · by_cases hfrom : j < before
    · exact .inr (.inl ⟨j, hfrom, hok, hf⟩)
    · obtain ⟨k, rfl⟩ : ∃ k, j = before + k := ⟨j - before, by omega⟩
      have hk : k < (2 + 48 * n) * bufs.length := by
        rw [Nat.mul_comm]
        omega
      have hdiv : k / (2 + 48 * n) < bufs.length := Nat.div_lt_of_lt_mul hk
      have hsplit : k = k / (2 + 48 * n) * (2 + 48 * n) + k % (2 + 48 * n) := (Nat.div_add_mod' k _).symm
      have hmod : k % (2 + 48 * n) < (frameWrites bufs[k / (2 + 48 * n)]).length := by
        rw [frameWrites_length, hlen _ (List.getElem_mem hdiv)]
        have := Nat.mod_lt k (show 0 < 2 + 48 * n by omega)
        omega
      refine .inr (.inr ⟨_, _, _, ⟨⟨_, List.getElem?_eq_getElem hdiv, List.getElem?_eq_getElem hmod⟩, ?_, ?_⟩⟩)
      · rwa [← hsplit]
      · rwa [← hsplit]

/-! ### NEW -/

/-- How a NEW ends is decided by the display, the count and PinOracle's answers. -/
theorem new_conditions (s : State) (n : Nat) (level : Byte) :
    s.disp = .live ∨
    (s.disp = .absent ∧ (n < 1 ∨ Config.nMax < n)) ∨
    (s.disp = .absent ∧ 1 ≤ n ∧ n ≤ 16 ∧
      (s.pinsOk (4 + 11 * n * (2 + 48 * n)) ∨ (∃ k, k < 4 ∧ s.pinsOk k ∧ s.pinAnswer k = false) ∨
        ∃ f m x, s.CutAt 4 n (newFrames n level) f m x)) := by
  cases hd : s.disp with
  | live => exact .inl rfl
  | absent =>
    by_cases hn : n < 1 ∨ Config.nMax < n
    · exact .inr (.inl ⟨rfl, hn⟩)
    · have hframes := pinsOk_or_cutAt s 4 (bufs := newFrames n level)
        (by rw [← sendBuffers_newSends]; exact sendBuffers_frame_length)
      have hcount : (newFrames n level).length = 11 * n := by
        rw [← sendBuffers_newSends, sendBuffers, List.length_map, newSends_length]
      rw [hcount] at hframes
      rw [Config.nMax] at hn
      exact .inr (.inr ⟨rfl, by omega, by omega, hframes⟩)

/-! ### The operations on the display -/

/-- How an operation on the display ends is decided by the display, CFG, the lines and PinOracle's answers. -/
theorem display_conditions {i : Instr} (hi : sendsFrames i) (s : State) :
    s.disp = .absent ∨ (s.disp = .live ∧ ∃ f, linkFault s = some f) ∨
    ∃ c bufs, s.Linked c ∧ displayFrames s.pixels c.n i = some bufs ∧
      (s.pinsOk (bufs.length * (2 + 48 * c.n)) ∨ ∃ f m x, s.CutAt 0 c.n bufs f m x) := by
  cases hd : s.disp with
  | absent => exact .inl rfl
  | live =>
    cases hf : linkFault s with
    | some f => exact .inr (.inl ⟨rfl, f, rfl⟩)
    | none =>
      obtain ⟨c, hc, hl⟩ : ∃ c, s.cfg = some c ∧ s.lines.allOwned = true := by
        rw [linkFault] at hf
        split at hf
        next => cases hf
        next c hc => exact ⟨c, hc, by simpa using hf⟩
      obtain ⟨bufs, hbufs⟩ := hi s.pixels c.n
      obtain ⟨ws, -, -, hsends, -⟩ := exec_display ⟨hd, hc, hl⟩ hbufs
      have hframes := pinsOk_or_cutAt s 0 (bufs := bufs) (by rw [← hsends]; exact sendBuffers_frame_length)
      simp only [Nat.zero_add, Nat.not_lt_zero, false_and, exists_false, false_or] at hframes
      exact .inr (.inr ⟨c, bufs, ⟨hd, hc, hl⟩, hbufs, hframes⟩)

/-- An operation on a live display without its preconditions stops. -/
theorem exec_display_fault {i : Instr} {s : State} {f : Fault} (hi : sendsFrames i) (hd : s.disp = .live)
    (hf : linkFault s = some f) : exec i s = .fault f := by
  have hstop (op : SeqOp) (body : State → Run) : onDisplay op body s = .fault f := by
    simp [onDisplay, hd, hf, unlessFault]
  obtain ⟨bufs, hbufs⟩ := hi (fun _ _ => 0) 0
  cases i with
  | brightness level | clear => exact hstop _ _
  | draw => exact hstop .draw fun t => writeFrames (buildFrames t)
  | _ => exact absurd hbufs (by simp [displayFrames])

/-! ### The wire commands -/

/-- How a wire command alone ends is decided by CFG, the lines, the position and PinOracle's answers. -/
theorem wire_conditions (v : Wire) (s : State) :
    (∃ f, positionFault s = some f) ∨
    ∃ c, s.Addressed c ∧
      (s.pinsOk (2 + 48 * c.n) ∨
        ∃ j w, (frameWrites (wireBuffer c.n s.seq.i v.sel v.dat))[j]? = some w ∧ s.pinsOk j ∧ s.pinAnswer j = false) := by
  cases hf : positionFault s with
  | some f => exact .inl ⟨f, rfl⟩
  | none =>
    obtain ⟨c, hs⟩ : ∃ c, s.Addressed c := by
      simp only [positionFault, linkFault] at hf
      split at hf
      next hlink => cases hf
      next hlink =>
        split at hlink
        next => cases hlink
        next c hc =>
          have hi : s.seq.i < s.moduleCount := by simpa using hf
          rw [State.moduleCount_of_cfg hc] at hi
          exact ⟨c, hc, by simpa using hlink, hi⟩
    have hlen : (frameWrites (wireBuffer c.n s.seq.i v.sel v.dat)).length = 2 + 48 * c.n := by
      rw [frameWrites_length, wireBuffer_length]
      omega
    have hframe := driveAll_cases (frameWrites (wireBuffer c.n s.seq.i v.sel v.dat)) s
    rw [hlen] at hframe
    exact .inr ⟨c, hs, hframe⟩

/-! ### S_MEASURE -/

/-- How an S_MEASURE ends is decided by the sensor's state, the two answers of the bus and the reply's calibration bit. -/
theorem measure_conditions (s : State) :
    s.sns ≠ .ready ∨ s.sns = .ready ∧
      (s.busWriteAnswer Config.sensorAddr [0xAC#8, 0x33#8, 0x00#8] = false ∨
        s.busWriteAnswer Config.sensorAddr [0xAC#8, 0x33#8, 0x00#8] = true ∧
          (s.busReadAnswer Config.sensorAddr = none ∨
            ∃ r, s.busReadAnswer Config.sensorAddr = some r ∧ (r.b0.getLsbD 3 = true ∨ r.b0.getLsbD 3 = false))) := by
  by_cases hs : s.sns = .ready
  · refine .inr ⟨hs, ?_⟩
    cases hw : s.busWriteAnswer Config.sensorAddr [0xAC#8, 0x33#8, 0x00#8] with
    | false => exact .inl rfl
    | true =>
      refine .inr ⟨rfl, ?_⟩
      cases hr : s.busReadAnswer Config.sensorAddr with
      | none => exact .inl rfl
      | some r => exact .inr ⟨r, rfl, (Bool.eq_false_or_eq_true _)⟩
  · exact .inl hs

end Sys2Proof.Machine
end

section
/-! What an instruction can change (20_memory R55, 10_state R31, R34): one lemma for the modules' side and one for the
sensor's, from which the invariant and the growth of TRACE will follow; and the obligation O52. -/

namespace Sys2Proof.Machine

/-! ### Effects -/

/-- What every instruction keeps: the words not run yet, what TRACE and the results hold, and its own registers unless they
have no value after it. `link` says whether its events are line events. -/
structure Effect (link : Bool) (s t : State) : Prop where
  inbox : t.inbox = s.inbox
  bench : t.bench = s.bench
  trace : ∃ es, t.trace = s.trace ++ es ∧ ∀ e ∈ es, e.isLine = link
  results : s.results <+: t.results
  registers : (t.scratch = Scratch.empty ∧ t.seq = SeqPos.idle) ∨ (t.scratch = s.scratch ∧ t.seq = s.seq)

/-- What an instruction does to the display handle, CFG and the ownership of the lines (10_state R21 to R23). -/
inductive HandleEffect (s t : State) : Prop where
  /-- Nothing. -/
  | kept (disp : t.disp = s.disp) (cfg : t.cfg = s.cfg) (all : t.lines.allOwned = s.lines.allOwned)
      (none : t.lines.noneOwned = s.lines.noneOwned)
  /-- A NEW made a display of `n` modules. -/
  | built (n : Nat) (before : s.disp = .absent) (one : 1 ≤ n) (sixteen : n ≤ 16) (disp : t.disp = .live)
      (cfg : t.cfg = some (configOf n)) (all : t.lines.allOwned = true)
  /-- A NEW failed and gave its lines back. -/
  | abandoned (before : s.disp = .absent) (disp : t.disp = .absent) (none : t.lines.noneOwned = true)
      (cfg : t.cfg = s.cfg ∨ t.cfg = .none)

/-- What an instruction for the modules can change. -/
structure LinkEffect (s t : State) : Prop extends Effect true s t where
  sns : t.sns = s.sns
  busWrites : t.busWrites = s.busWrites
  busReads : t.busReads = s.busReads
  handle : HandleEffect s t

/-- What an instruction does to the sensor driver's state (10_state R26). -/
inductive SnsEffect (i : Instr) (s t : State) : Prop where
  /-- Nothing. -/
  | kept (sns : t.sns = s.sns)
  /-- S_INIT succeeded. -/
  | made (before : s.sns = .uninitialized) (sns : t.sns = .ready) (trace : t.trace = s.trace ++ initEvents)
  /-- The init command failed; an operation of the host sends it to an uninitialised sensor only. -/
  | lost (before : hostOperation i = true → s.sns = .uninitialized) (sns : t.sns = .undefined)

/-- What an instruction for the sensor can change. -/
structure SensorEffect (i : Instr) (s t : State) : Prop extends Effect false s t where
  cfg : t.cfg = s.cfg
  disp : t.disp = s.disp
  lines : t.lines = s.lines
  pins : t.pins = s.pins
  canvases : t.canvases = s.canvases
  modules : t.modules = s.modules
  sns : SnsEffect i s t

theorem trace_of_tape {s t : State} {es : List Event} (h : t.tape = es.reverse ++ s.tape) : t.trace = s.trace ++ es := by
  simp [State.trace, h]

/-! ### Instructions for the modules -/

/-- Line writes change no ownership. -/
theorem Lines.follow_allOwned {es : List Event} (h : ∀ e ∈ es, ∃ l v, e = .set l v) (ls : Lines) :
    (ls.follow es).allOwned = ls.allOwned ∧ (ls.follow es).noneOwned = ls.noneOwned := by
  obtain ⟨hdata, hclk, hcs⟩ := Lines.follow_owned h ls
  simp only [Lines.allOwned, Lines.noneOwned, hdata, hclk, hcs, and_self]

/-- A refusal returns its result and does nothing else (60_exceptions R288). -/
theorem LinkEffect.of_answer (r : Result) (s : State) : LinkEffect s (s.answer r) where
  inbox := rfl
  bench := rfl
  trace := ⟨[], trace_of_tape rfl, by simp⟩
  results := List.prefix_append _ _
  registers := .inr ⟨rfl, rfl⟩
  sns := rfl
  busWrites := rfl
  busReads := rfl
  handle := .kept rfl rfl rfl rfl

/-- Line writes, ended or cut, with the handle as it was. The fields that `ht` takes from `t` itself may be anything. -/
theorem LinkEffect.of_lineWrites {s t : State} {es : List Event} {rs : List Result} {ls : Lines}
    (hes : ∀ e ∈ es, ∃ l v, e = .set l v) (hls : ls = s.lines.follow es ∨ ∃ l, ls = (s.lines.follow es).withLevel l .unknown)
    (ht : t = { s with
      lines := ls, scratch := Scratch.empty, seq := SeqPos.idle, tape := es.reverse ++ s.tape, results := s.results ++ rs,
      lastCut := t.lastCut, pins := t.pins, canvases := t.canvases, modules := t.modules }) :
    LinkEffect s t := by
  obtain ⟨hall, hnone⟩ := Lines.follow_allOwned hes s.lines
  rw [ht]
  exact
    { inbox := rfl
      bench := rfl
      trace := ⟨es, trace_of_tape rfl, fun e he => by obtain ⟨l, v, rfl⟩ := hes e he; rfl⟩
      results := List.prefix_append _ _
      registers := .inl ⟨rfl, rfl⟩
      sns := rfl
      busWrites := rfl
      busReads := rfl
      handle := by
        rcases hls with rfl | ⟨l, rfl⟩
        · exact .kept rfl rfl hall hnone
        · exact .kept rfl rfl ((Lines.withLevel_allOwned _ _ _).trans hall) ((Lines.withLevel_noneOwned _ _ _).trans hnone) }

/-- A NEW that was not refused: claims and line writes, and then a handle of one of three kinds. The fields that `ht` takes from
`t` itself may be anything. -/
theorem LinkEffect.of_new {s t : State} {es : List Event} {r : Result} (hes : ∀ e ∈ es, e.isLine = true)
    (hhandle : HandleEffect s t)
    (ht : t = { s with
      cfg := t.cfg, disp := t.disp, lines := t.lines, scratch := Scratch.empty, seq := SeqPos.idle,
      tape := es.reverse ++ s.tape, results := s.results ++ [r], lastCut := t.lastCut, pins := t.pins,
      modules := t.modules }) :
    LinkEffect s t where
  inbox := by rw [ht]
  bench := by rw [ht]
  trace := ⟨es, trace_of_tape (by rw [ht]), hes⟩
  results := ⟨[r], by rw [ht]⟩
  registers := .inl ⟨by rw [ht], by rw [ht]⟩
  sns := by rw [ht]
  busWrites := by rw [ht]
  busReads := by rw [ht]
  handle := hhandle

theorem claimEvents_isLine {e : Event} (he : e ∈ claimEvents) : e.isLine = true := by
  simp only [claimEvents, List.mem_cons, List.not_mem_nil, or_false] at he
  rcases he with rfl | rfl | rfl <;> rfl

theorem framesEvents_isLine {bufs : List (List Byte)} {e : Event} (he : e ∈ framesEvents bufs) : e.isLine = true := by
  obtain ⟨l, v, rfl⟩ := framesEvents_isSet he
  rfl

/-- The claims and some of the frames of NEW are line events. -/
theorem newEvents_isLine {bufs : List (List Byte)} {es : List Event} (hes : es ⊆ framesEvents bufs) :
    ∀ e ∈ claimEvents ++ es, e.isLine = true := by
  intro e he
  rcases List.mem_append.mp he with he | he
  · exact claimEvents_isLine he
  · exact framesEvents_isLine (hes he)

theorem new_linkEffect {n : Nat} {level : Byte} {s t : State} (h : exec (.new n level) s = .next t) : LinkEffect s t := by
  rcases new_conditions s n level with
    hd | ⟨hd, hn⟩ | ⟨hd, h1, h16, hok | ⟨k, hk, hok, hf⟩ | ⟨f, m, x, ⟨buf, hbuf, hx⟩, hok, hf⟩⟩
  · cases (newRefusedWhileLive n level s hd).symm.trans h
    exact LinkEffect.of_answer _ s
  · cases (exec_new_count hd hn).symm.trans h
    exact LinkEffect.of_new (es := []) (by simp) (.kept rfl rfl rfl rfl) rfl
  · cases (newSucceeds n level s hd h1 h16 hok).symm.trans h
    exact LinkEffect.of_new (newEvents_isLine (List.Subset.refl _)) (.built n hd h1 h16 rfl rfl rfl) rfl
  · cases (newClaimFails n level s k hd h1 h16 hk hok hf).symm.trans h
    refine LinkEffect.of_new (fun e he => claimEvents_isLine (List.mem_of_mem_take he)) ?_ rfl
    rcases k with _ | k
    · exact .kept rfl rfl rfl rfl
    · exact .abandoned hd hd rfl (.inl rfl)
  · cases (newCutBySendingFailure n level s f m _ buf x hd h1 h16 hbuf hx rfl hok hf).symm.trans h
    exact LinkEffect.of_new (newEvents_isLine (List.take_subset _ _)) (.abandoned hd hd rfl (.inr rfl)) rfl

theorem display_linkEffect {i : Instr} {s t : State} (hi : sendsFrames i) (h : exec i s = .next t) : LinkEffect s t := by
  rcases display_conditions hi s with hd | ⟨hd, f, hf⟩ | ⟨c, bufs, hs, hbufs, hok | ⟨f, m, x, ⟨buf, hbuf, hx⟩, hok, hf⟩⟩
  · obtain ⟨bufs, hbufs⟩ := hi s.pixels 0
    cases (exec_display_absent hbufs hd).symm.trans h
    exact LinkEffect.of_answer _ s
  · cases (exec_display_fault hi hd hf).symm.trans h
  · cases (exec_display_ok hs hbufs hok).symm.trans h
    exact LinkEffect.of_lineWrites (fun _ => framesEvents_isSet) (.inl rfl) rfl
  · rw [Nat.zero_add] at hok hf
    cases (exec_display_cut hs hbufs hbuf hx hok hf).symm.trans h
    exact LinkEffect.of_lineWrites (fun _ he => framesEvents_isSet (List.mem_of_mem_take he)) (.inr ⟨_, rfl⟩) rfl

theorem wire_linkEffect {v : Wire} {s t : State} (h : exec v.instr s = .next t) : LinkEffect s t := by
  rcases wire_conditions v s with ⟨f, hf⟩ | ⟨c, hs, hok | ⟨j, w, hw, hok, hf⟩⟩
  · cases (exec_wire_fault hf).symm.trans h
  · cases (exec_wire_ok hs hok).symm.trans h
    exact LinkEffect.of_lineWrites (rs := []) (fun _ => map_event_isSet) (.inl rfl) (by rw [List.append_nil]; rfl)
  · cases (exec_wire_cut hs hw hok hf).symm.trans h
    exact LinkEffect.of_lineWrites (fun _ he => map_event_isSet (List.mem_of_mem_take he)) (.inr ⟨_, rfl⟩) rfl

/-- What an instruction for the modules can change. -/
theorem exec_linkEffect {i : Instr} {s t : State} (hi : touchesLink i = true) (h : exec i s = .next t) : LinkEffect s t := by
  induction i using instr_families with
  | hnew n level => exact new_linkEffect h
  | hdisplay i hframes => exact display_linkEffect hframes h
  | hwire v => exact wire_linkEffect h
  | hnoop =>
    cases (noopChangesNothing s).symm.trans h
    exact LinkEffect.of_lineWrites (es := []) (rs := []) (by simp) (.inl rfl) (by rw [List.append_nil]; rfl)
  | hsensor i hsensor => exact absurd (hi.symm.trans hsensor) (by decide)

/-! ### Instructions for the sensor -/

/-- Bus events, and changes of the sensor's part of the state alone. The fields that `ht` takes from `t` itself may be anything. -/
theorem SensorEffect.of_bus {i : Instr} {s t : State} {es : List Event} {rs : List Result}
    (hes : ∀ e ∈ es, e.isLine = false) (hsns : SnsEffect i s t)
    (ht : t = { s with
      scratch := Scratch.empty, sns := t.sns, seq := SeqPos.idle, tape := es.reverse ++ s.tape, results := s.results ++ rs,
      lastCut := t.lastCut, busWrites := t.busWrites, busReads := t.busReads }) :
    SensorEffect i s t where
  inbox := by rw [ht]
  bench := by rw [ht]
  trace := ⟨es, trace_of_tape (by rw [ht]), hes⟩
  results := ⟨rs, by rw [ht]⟩
  registers := .inl ⟨by rw [ht], by rw [ht]⟩
  cfg := by rw [ht]
  disp := by rw [ht]
  lines := by rw [ht]
  pins := by rw [ht]
  canvases := by rw [ht]
  modules := by rw [ht]
  sns := hsns

/-- A refusal returns its result and does nothing else (60_exceptions R288). -/
theorem SensorEffect.of_answer (i : Instr) (r : Result) (s : State) : SensorEffect i s (s.answer r) where
  inbox := rfl
  bench := rfl
  trace := ⟨[], trace_of_tape rfl, by simp⟩
  results := List.prefix_append _ _
  registers := .inr ⟨rfl, rfl⟩
  cfg := rfl
  disp := rfl
  lines := rfl
  pins := rfl
  canvases := rfl
  modules := rfl
  sns := .kept rfl

theorem sInit_sensorEffect {s t : State} (h : exec .sInit s = .next t) : SensorEffect .sInit s t := by
  by_cases hs : s.sns = .uninitialized
  · cases hw : s.busWriteAnswer Config.sensorAddr [0xE1#8, 0x08#8, 0x00#8] with
    | true =>
      cases (initSucceeds s hs hw).symm.trans h
      exact SensorEffect.of_bus (es := initEvents) (by simp [initEvents, Event.isLine]) (.made hs rfl (trace_of_tape rfl)) rfl
    | false =>
      cases (initFails s hs hw).symm.trans h
      exact SensorEffect.of_bus (es := []) (by simp) (.lost (fun _ => hs) rfl) rfl
  · cases ((sensorOperationsRefused s).1 hs).symm.trans h
    exact SensorEffect.of_answer _ _ s

theorem sMeasure_sensorEffect {s t : State} (h : exec .sMeasure s = .next t) : SensorEffect .sMeasure s t := by
  rcases measure_conditions s with hs | ⟨hs, hw | ⟨hw, hr | ⟨r, hr, hcal | hcal⟩⟩⟩
  · cases ((sensorOperationsRefused s).2 hs).symm.trans h
    exact SensorEffect.of_answer _ _ s
  · cases ((measureBusFails s hs).1 hw).symm.trans h
    exact SensorEffect.of_bus (es := []) (by simp) (.kept rfl) rfl
  · cases ((measureBusFails s hs).2 hw hr).symm.trans h
    exact SensorEffect.of_bus (es := [.twWrite _ _, .delay 100]) (by simp [Event.isLine]) (.kept rfl) rfl
  · cases (measureGivesReading s r hs hw hr hcal).symm.trans h
    exact SensorEffect.of_bus (es := [.twWrite _ _, .delay 100, .twRead _ _ _]) (by simp [Event.isLine]) (.kept rfl) rfl
  · cases (measureUncalibrated s r hs hw hr hcal).symm.trans h
    exact SensorEffect.of_bus (es := [.twWrite _ _, .delay 100, .twRead _ _ _]) (by simp [Event.isLine]) (.kept rfl) rfl

theorem twCmdInit_sensorEffect {s t : State} (h : exec .twCmdInit s = .next t) : SensorEffect .twCmdInit s t := by
  cases hw : s.busWriteAnswer Config.sensorAddr [0xE1#8, 0x08#8, 0x00#8] with
  | true =>
    cases ((sensorCommandsWriteThreeBytes s).1 hw).symm.trans h
    exact SensorEffect.of_bus (es := [.twWrite _ _]) (rs := []) (by simp [Event.isLine]) (.kept rfl)
      (by rw [List.append_nil]; rfl)
  | false =>
    cases ((sensorCommandsFail s).1 hw).symm.trans h
    exact SensorEffect.of_bus (es := []) (by simp) (.lost (by simp [hostOperation]) rfl) rfl

theorem twCmdTrigger_sensorEffect {s t : State} (h : exec .twCmdTrigger s = .next t) : SensorEffect .twCmdTrigger s t := by
  cases hw : s.busWriteAnswer Config.sensorAddr [0xAC#8, 0x33#8, 0x00#8] with
  | true =>
    cases ((sensorCommandsWriteThreeBytes s).2 hw).symm.trans h
    exact SensorEffect.of_bus (es := [.twWrite _ _]) (rs := []) (by simp [Event.isLine]) (.kept rfl)
      (by rw [List.append_nil]; rfl)
  | false =>
    cases ((sensorCommandsFail s).2 hw).symm.trans h
    exact SensorEffect.of_bus (es := []) (by simp) (.kept rfl) rfl

theorem reply_sensorEffect {i : Instr} {r : Reply} {s t : State} (h : exec (.r48Calibrated r) s = .next t) :
    SensorEffect i s t := by
  have hexec := (exec_reply r s).2
  split at hexec
  · cases hexec.symm.trans h
    exact SensorEffect.of_bus (es := []) (by simp) (.kept rfl) rfl
  · cases hexec.symm.trans h
    exact SensorEffect.of_bus (es := []) (by simp) (.kept rfl) rfl

/-- What an instruction for the sensor can change. -/
theorem exec_sensorEffect {i : Instr} {s t : State} (hi : touchesLink i = false) (h : exec i s = .next t) :
    SensorEffect i s t := by
  cases i with
  | sInit => exact sInit_sensorEffect h
  | sMeasure => exact sMeasure_sensorEffect h
  | twCmdInit => exact twCmdInit_sensorEffect h
  | twCmdTrigger => exact twCmdTrigger_sensorEffect h
  | r48Calibrated r | r48Uncalibrated r => exact reply_sensorEffect h
  | _ => exact absurd hi (by simp [touchesLink])

/-- What every instruction keeps. -/
theorem exec_effect {i : Instr} {s t : State} (h : exec i s = .next t) : Effect (touchesLink i) s t := by
  cases hi : touchesLink i with
  | true => exact (exec_linkEffect hi h).toEffect
  | false => exact (exec_sensorEffect hi h).toEffect

/-- Settles O52. -/
theorem subBlocksStaySeparate : Obligations.SubBlocksStaySeparate := by
  intro i s t h
  obtain ⟨es, htrace, hes⟩ := (exec_effect h).trace
  refine ⟨es, htrace, hes, ?_⟩
  split
  next hi =>
    have heffect := exec_linkEffect hi h
    exact ⟨heffect.sns, heffect.busWrites, heffect.busReads⟩
  next hi =>
    have heffect := exec_sensorEffect (Bool.not_eq_true _ ▸ hi) h
    exact ⟨heffect.cfg, heffect.disp, heffect.lines, heffect.pins, heffect.canvases, heffect.modules⟩

end Sys2Proof.Machine
end

section
/-! Steps (10_state R20, R34): the invariant of every state, the growth of TRACE, and the runs of host programs; and the
obligations O46 to O51 and O58. -/

namespace Sys2Proof.Machine

/-! ### What every instruction keeps of the invariant -/

theorem Effect.registers_idle {link : Bool} {s t : State} (he : Effect link s t)
    (h : s.scratch = Scratch.empty ∧ s.seq = SeqPos.idle) : t.scratch = Scratch.empty ∧ t.seq = SeqPos.idle := by
  obtain ⟨hscratch, hseq⟩ := h
  rcases he.registers with hlost | ⟨hs, hq⟩
  · exact hlost
  · exact ⟨hs.trans hscratch, hq.trans hseq⟩

/-- TRACE keeps what it holds, so that a ready sensor stays one that was initialised. -/
theorem Effect.initEvents_infix {link : Bool} {s t : State} (he : Effect link s t) (h : initEvents <:+: s.trace) :
    initEvents <:+: t.trace := by
  obtain ⟨es, htrace, -⟩ := he.trace
  rw [htrace]
  exact h.trans (List.prefix_append _ _).isInfix

/-- A live display keeps its lines and its CFG, and so does the absence of one (10_state R34 (a), (b)). -/
theorem HandleEffect.keeps_inv {s t : State} (h : HandleEffect s t) (hs : s.Inv) :
    (t.disp = .live → t.lines.allOwned = true ∧ ∃ n, 1 ≤ n ∧ n ≤ Config.nMax ∧ t.cfg = some (configOf n)) ∧
      (t.disp = .absent → t.lines.noneOwned = true ∧ t.cfg = none) := by
  cases h with
  | kept disp cfg all none =>
    rw [disp, cfg, all, none]
    exact ⟨hs.live, hs.absent⟩
  | built n before one sixteen disp cfg all =>
    exact ⟨fun _ => ⟨all, n, one, sixteen, cfg⟩, fun habsent => absurd (disp.symm.trans habsent) (by simp)⟩
  | abandoned before disp none cfg =>
    refine ⟨fun hlive => absurd (disp.symm.trans hlive) (by simp), fun _ => ⟨none, ?_⟩⟩
    rcases cfg with hkept | hnone
    · exact hkept.trans (hs.absent before).2
    · exact hnone

theorem LinkEffect.keeps_inv {s t : State} (h : LinkEffect s t) (hs : s.Inv) : t.Inv where
  live := (h.handle.keeps_inv hs).1
  absent := (h.handle.keeps_inv hs).2
  ready := fun hready => h.initEvents_infix (hs.ready (h.sns.symm.trans hready))
  idle := h.registers_idle hs.idle

theorem SensorEffect.keeps_inv {i : Instr} {s t : State} (h : SensorEffect i s t) (hs : s.Inv) : t.Inv where
  live := by
    rw [h.disp, h.cfg, h.lines]
    exact hs.live
  absent := by
    rw [h.disp, h.cfg, h.lines]
    exact hs.absent
  ready := fun hready => by
    cases h.sns with
    | kept sns => exact h.initEvents_infix (hs.ready (sns.symm.trans hready))
    | made before sns trace => exact trace ▸ (List.suffix_append _ _).isInfix
    | lost before sns => exact absurd (sns.symm.trans hready) (by simp)
  idle := h.registers_idle hs.idle

/-- Every instruction keeps the invariant. -/
theorem exec_keeps_inv {i : Instr} {s t : State} (hs : s.Inv) (h : exec i s = .next t) : t.Inv := by
  cases hi : touchesLink i with
  | true => exact (exec_linkEffect hi h).keeps_inv hs
  | false => exact (exec_sensorEffect hi h).keeps_inv hs

/-! ### Steps -/

/-- Fetching a word takes it from the bench or from the host's queue and changes nothing else. -/
theorem fetch_changes {s u : State} {q : Issued} (h : fetch s = some (q, u)) :
    ∃ inbox bench, u = { s with inbox, bench } := by
  rcases fetch_cases s with ⟨-, -, hf⟩ | ⟨q', -, hf⟩ | ⟨w, rest, -, -, hf⟩
  · cases hf.symm.trans h
  · cases hf.symm.trans h
    exact ⟨s.inbox, none, rfl⟩
  · cases hf.symm.trans h
    exact ⟨rest, s.bench, rfl⟩

/-- Settles O48: fetching and refusing touch nothing the invariant speaks of, and every instruction keeps it. -/
theorem everyStepKeepsInvariant : Obligations.EveryStepKeepsInvariant := by
  intro s t hs h
  rcases step_next_cases h with rfl | ⟨q, u, hf, hrun⟩
  · exact hs
  · obtain ⟨inbox, bench, rfl⟩ := fetch_changes hf
    have hu : State.Inv { s with inbox, bench } := ⟨hs.live, hs.absent, hs.ready, hs.idle⟩
    rcases hrun with rfl | ⟨i, -, hexec⟩
    · exact ⟨hs.live, hs.absent, hs.ready, hs.idle⟩
    · exact exec_keeps_inv hu hexec

/-- Settles O50. -/
theorem traceOnlyGrows : Obligations.TraceOnlyGrows := by
  intro s t h
  rcases step_next_cases h with rfl | ⟨q, u, hf, hrun⟩
  · exact ⟨List.prefix_rfl, List.prefix_rfl⟩
  · obtain ⟨inbox, bench, rfl⟩ := fetch_changes hf
    rcases hrun with rfl | ⟨i, -, hexec⟩
    · exact ⟨List.prefix_rfl, List.prefix_append _ _⟩
    · obtain ⟨es, htrace, -⟩ := (exec_effect hexec).trace
      exact ⟨⟨es, htrace.symm⟩, (exec_effect hexec).results⟩

/-! ### What the host reaches -/

/-- The six host operations are the instructions whose word is a host word (30_encoding R82). -/
theorem hostWord_isSome_iff (i : Instr) : (hostWord i).isSome = hostOperation i := by
  cases i <;> rfl

theorem encode_of_hostWord {i : Instr} {w : H32} (h : hostWord i = some w) : encode i = .h32 w := by
  rw [hostWord] at h
  split at h
  next w' henc => rw [henc, Option.some.inj h]
  all_goals cases h

/-- A host word decodes to host operations only. -/
theorem hostOperation_of_decode {w : H32} {i : Instr} (h : decode (.h32 w) = .ok i) : hostOperation i = true := by
  obtain ⟨-, henc⟩ := decode_eq_ok_iff.mp h
  rw [← hostWord_isSome_iff, hostWord, henc]
  rfl

/-- A step with an empty bench found no word, or took the next host word and refused or ran it. -/
theorem step_host_cases {s t : State} (hb : s.bench = none) (h : step s = .next t) :
    t = s ∨ ∃ (w : H32) (rest : List H32), s.inbox = w :: rest ∧
      (((∃ e, decode (.h32 w) = .error e) ∧
          t = { s with inbox := rest, results := s.results ++ [.refused .illegalCommand] }) ∨
        ∃ i, decode (.h32 w) = .ok i ∧ hostOperation i = true ∧ exec i { s with inbox := rest } = .next t) := by
  rcases fetch_cases s with ⟨-, hnil, -⟩ | ⟨q, hq, -⟩ | ⟨w, rest, -, hw, hf⟩
  · cases (stepIdlesWithoutWords s hb hnil).symm.trans h
    exact .inl rfl
  · exact absurd (hb.symm.trans hq) (by simp)
  · refine .inr ⟨w, rest, hw, ?_⟩
    rcases step_of_fetch hf h with ⟨rfl, w', e, hq, he⟩ | ⟨i, hi, hexec⟩
    · cases hq
      exact .inl ⟨⟨e, he⟩, rfl⟩
    · exact .inr ⟨i, hi, hostOperation_of_decode hi, hexec⟩

/-- A step leaves an empty bench empty. -/
theorem step_keeps_hostProgram {s t : State} (hb : s.bench = none) (h : step s = .next t) : t.bench = none := by
  rcases step_host_cases hb h with rfl | ⟨w, rest, -, ⟨-, rfl⟩ | ⟨i, -, -, hexec⟩⟩
  · exact hb
  · exact hb
  · exact (exec_effect hexec).bench.trans hb

/-- Settles O58. -/
theorem hostReachesOnlyItsOperations : Obligations.HostReachesOnlyItsOperations := by
  refine ⟨fun i s hi => ?_, fun i s hi => ?_, fun s t hb h => ⟨step_keeps_hostProgram hb h, step_host_cases hb h⟩⟩
  · have hword : hostWord i = none := by simpa [hi] using hostWord_isSome_iff i
    simp only [State.issue, hword]
  · obtain ⟨w, hword⟩ := Option.isSome_iff_exists.mp ((hostWord_isSome_iff i).trans hi)
    exact ⟨w, encode_of_hostWord hword, by simp only [State.issue, hword]⟩

/-- A live display stays live with its CFG (70_reset R321). -/
theorem HandleEffect.live_stays {s t : State} (h : HandleEffect s t) (hs : s.disp = .live) :
    t.disp = .live ∧ t.cfg = s.cfg := by
  cases h with
  | kept disp cfg all none => exact ⟨disp.trans hs, cfg⟩
  | built n before one sixteen disp cfg all => exact absurd (before.symm.trans hs) (by simp)
  | abandoned before disp none cfg => exact absurd (before.symm.trans hs) (by simp)

/-- What an instruction cannot take back: a live display, and the sensor's leaving of its reset state. -/
theorem exec_never_back {i : Instr} {s t : State} (h : exec i s = .next t) :
    (s.disp = .live → t.disp = .live ∧ t.cfg = s.cfg) ∧ (s.sns ≠ .uninitialized → t.sns ≠ .uninitialized) ∧
      (hostOperation i = true → s.sns ≠ .uninitialized → t.sns = s.sns) := by
  cases hi : touchesLink i with
  | true =>
    have he := exec_linkEffect hi h
    exact ⟨he.handle.live_stays, fun hs => he.sns ▸ hs, fun _ _ => he.sns⟩
  | false =>
    have he := exec_sensorEffect hi h
    refine ⟨fun hs => ⟨he.disp.trans hs, he.cfg⟩, ?_⟩
    cases he.sns with
    | kept sns => exact ⟨fun hs => sns ▸ hs, fun _ _ => sns⟩
    | made before sns trace => exact ⟨fun hs => absurd before hs, fun _ hs => absurd before hs⟩
    | lost before sns => exact ⟨fun _ => by simp [sns], fun hhost hs => absurd (before hhost) hs⟩

/-- Settles O51. -/
theorem nothingGoesBack : Obligations.NothingGoesBack := by
  intro s t h
  have hhost : s.HostProgram → s.sns ≠ .uninitialized → t.sns = s.sns := by
    intro hb hs
    rcases step_host_cases hb h with rfl | ⟨w, rest, -, ⟨-, rfl⟩ | ⟨i, -, hi, hexec⟩⟩
    · rfl
    · rfl
    · exact (exec_never_back hexec).2.2 hi hs
  rcases step_next_cases h with rfl | ⟨q, u, hf, hrun⟩
  · exact ⟨fun hs => ⟨hs, rfl⟩, id, hhost⟩
  · obtain ⟨inbox, bench, rfl⟩ := fetch_changes hf
    rcases hrun with rfl | ⟨i, -, hexec⟩
    · exact ⟨fun hs => ⟨hs, rfl⟩, id, hhost⟩
    · obtain ⟨hlive, hsns, -⟩ := exec_never_back hexec
      exact ⟨hlive, hsns, hhost⟩

/-! ### Runs of host programs -/

/-- A host operation comes to a next state wherever the invariant holds: on a live display the preconditions of a frame do. -/
theorem exec_host_next {i : Instr} {s : State} (hs : s.Inv) (hi : hostOperation i = true) : ∃ t, exec i s = .next t := by
  have hdisplay (op : SeqOp) (body : State → Run) : ∃ t, onDisplay op body s = .next t := by
    cases hd : s.disp with
    | absent => exact ⟨_, if_pos hd⟩
    | live =>
      obtain ⟨hl, n, -, -, hc⟩ := hs.live hd
      exact ⟨_, onDisplay_live hd hc hl⟩
  cases i with
  | new n level =>
    simp only [exec, execNew]
    split_ifs <;> exact ⟨_, rfl⟩
  | brightness level | clear => exact hdisplay _ _
  | draw => exact hdisplay .draw fun t => writeFrames (buildFrames t)
  | sInit =>
    simp only [exec, execSInit]
    split_ifs <;> exact ⟨_, rfl⟩
  | sMeasure =>
    simp only [exec, execSMeasure]
    split_ifs <;> exact ⟨_, rfl⟩
  | _ => exact absurd hi (by simp [hostOperation])

/-- With an empty bench a step comes to a next state wherever the invariant holds. -/
theorem step_host_next {s : State} (hs : s.Inv) (hb : s.bench = none) : ∃ t, step s = .next t := by
  cases hw : s.inbox with
  | nil => exact ⟨s, stepIdlesWithoutWords s hb hw⟩
  | cons w rest =>
    have hf := fetch_inbox hb hw
    rcases decode_cases (.h32 w) with ⟨i, hi⟩ | ⟨e, he⟩
    · have hu : State.Inv { s with inbox := rest } := ⟨hs.live, hs.absent, hs.ready, hs.idle⟩
      rw [step_of_decode hf hi]
      exact exec_host_next hu (hostOperation_of_decode hi)
    · exact ⟨_, step_of_reject hf he⟩

/-- A run of one step more goes on from the state of its first step. -/
theorem run_succ_of_next {M : Host.Core} {k : Nat} {s s' : M.State} (h : M.step s = .next s') :
    M.run (k + 1) s = M.run k s' := by
  simp only [Host.Core.run, h]

/-- Settles O49, by induction on the number of steps. -/
theorem hostProgramNeverStops : Obligations.HostProgramNeverStops := by
  intro k
  induction k with
  | zero => exact fun s hs hb => ⟨s, rfl, hs, hb⟩
  | succ k ih =>
    intro s hs hb
    obtain ⟨u, hu⟩ := step_host_next hs hb
    obtain ⟨t, ht, hinv, hbench⟩ := ih u (everyStepKeepsInvariant s u hs hu) (step_keeps_hostProgram hb hu)
    exact ⟨t, (run_succ_of_next (M := Sys2Proof.core) hu).trans ht, hinv, hbench⟩

/-! ### Reset -/

/-- Settles O46. -/
theorem resetGivesTheSpecValues : Obligations.ResetGivesTheSpecValues :=
  ⟨rfl, rfl, rfl, rfl, rfl, fun _ hm => List.eq_of_mem_replicate hm⟩

/-- Settles O47. -/
theorem resetMeetsInvariant : Obligations.ResetMeetsInvariant where
  live := nofun
  absent := fun _ => ⟨rfl, rfl⟩
  ready := nofun
  idle := ⟨rfl, rfl⟩

end Sys2Proof.Machine
end

section
/-! What no instruction reads (10_state R24 to R29, 41 R140): the observer, and the registers an earlier operation left.
How an instruction ends is decided by what neither of them holds, and each end is the same once they are forgotten; and the
obligations O53 and O54. -/

namespace Sys2Proof.Machine

/-- A part of the state that no instruction reads, with other contents for it. -/
inductive Hidden where
  | modules (o : Observer)
  | scratch (r : Scratch)

/-- The state with the other contents. -/
def Hidden.put (x : Hidden) (s : State) : State :=
  match x with
  | .modules o => { s with modules := o }
  | .scratch r => { s with scratch := r }

/-- The state with that part forgotten. -/
def Hidden.forget (x : Hidden) (s : State) : State :=
  match x with
  | .modules _ => s.withoutModules
  | .scratch _ => s.withoutScratch

/-! ### What decides how an instruction ends is not hidden -/

section
variable (x : Hidden) (s : State)

@[simp] theorem Hidden.put_cfg : (x.put s).cfg = s.cfg := by cases x <;> rfl
@[simp] theorem Hidden.put_disp : (x.put s).disp = s.disp := by cases x <;> rfl
@[simp] theorem Hidden.put_lines : (x.put s).lines = s.lines := by cases x <;> rfl
@[simp] theorem Hidden.put_sns : (x.put s).sns = s.sns := by cases x <;> rfl
@[simp] theorem Hidden.put_seq : (x.put s).seq = s.seq := by cases x <;> rfl
@[simp] theorem Hidden.put_pixels : (x.put s).pixels = s.pixels := by cases x <;> rfl
@[simp] theorem Hidden.put_pinAnswer (j : Nat) : (x.put s).pinAnswer j = s.pinAnswer j := by cases x <;> rfl
@[simp] theorem Hidden.put_pinsOk (k : Nat) : (x.put s).pinsOk k = s.pinsOk k := by cases x <;> rfl
@[simp] theorem Hidden.put_linkFault : linkFault (x.put s) = linkFault s := by cases x <;> rfl
@[simp] theorem Hidden.put_positionFault : positionFault (x.put s) = positionFault s := by cases x <;> rfl
@[simp] theorem Hidden.put_busWriteAnswer (addr : BusAddr) (bytes : List Byte) :
    (x.put s).busWriteAnswer addr bytes = s.busWriteAnswer addr bytes := by cases x <;> rfl
@[simp] theorem Hidden.put_busReadAnswer (addr : BusAddr) : (x.put s).busReadAnswer addr = s.busReadAnswer addr := by
  cases x <;> rfl

end

theorem Hidden.put_linked {x : Hidden} {s : State} {c : Cfg} (h : s.Linked c) : (x.put s).Linked c :=
  ⟨by simpa using h.disp, by simpa using h.cfg, by simpa using h.lines⟩

theorem Hidden.put_addressed {x : Hidden} {s : State} {c : Cfg} (h : s.Addressed c) : (x.put s).Addressed c :=
  ⟨by simpa using h.cfg, by simpa using h.lines, by simpa using h.position⟩

/-! ### Each end is the same once the hidden part is forgotten -/

/-- The instruction does the same whatever the hidden part holds. -/
def Hidden.Unread (x : Hidden) (i : Instr) (s : State) : Prop :=
  mapNext x.forget (exec i (x.put s)) = mapNext x.forget (exec i s)

theorem new_unread (x : Hidden) (n : Nat) (level : Byte) (s : State) : x.Unread (.new n level) s := by
  unfold Hidden.Unread
  rcases new_conditions s n level with
    hd | ⟨hd, hn⟩ | ⟨hd, h1, h16, hok | ⟨k, hk, hok, hf⟩ | ⟨f, m, w, ⟨buf, hbuf, hw⟩, hok, hf⟩⟩
  · rw [newRefusedWhileLive n level s hd, newRefusedWhileLive n level (x.put s) (by simpa using hd)]
    cases x <;> rfl
  · rw [exec_new_count hd hn, exec_new_count (s := x.put s) (by simpa using hd) hn]
    cases x <;> rfl
  · rw [newSucceeds n level s hd h1 h16 hok, newSucceeds n level (x.put s) (by simpa using hd) h1 h16 (by simpa using hok)]
    cases x <;> rfl
  · rw [newClaimFails n level s k hd h1 h16 hk hok hf,
      newClaimFails n level (x.put s) k (by simpa using hd) h1 h16 hk (by simpa using hok) (by simpa using hf)]
    cases x <;> rfl
  · rw [newCutBySendingFailure n level s f m _ buf w hd h1 h16 hbuf hw rfl hok hf,
      newCutBySendingFailure n level (x.put s) f m _ buf w (by simpa using hd) h1 h16 hbuf hw rfl (by simpa using hok)
        (by simpa using hf)]
    cases x <;> rfl

theorem display_unread (x : Hidden) {i : Instr} (hi : sendsFrames i) (s : State) : x.Unread i s := by
  unfold Hidden.Unread
  rcases display_conditions hi s with hd | ⟨hd, f, hf⟩ | ⟨c, bufs, hs, hbufs, hok | ⟨f, m, w, ⟨buf, hbuf, hw⟩, hok, hf⟩⟩
  · obtain ⟨bufs, hbufs⟩ := hi s.pixels 0
    rw [exec_display_absent hbufs hd, exec_display_absent (s := x.put s) hbufs (by simpa using hd)]
    cases x <;> rfl
  · rw [exec_display_fault hi hd hf, exec_display_fault (s := x.put s) hi (by simpa using hd) (by simpa using hf)]
  · rw [exec_display_ok hs hbufs hok,
      exec_display_ok (s := x.put s) (Hidden.put_linked hs) (by simpa using hbufs) (by simpa using hok)]
    cases x <;> rfl
  · rw [Nat.zero_add] at hok hf
    rw [exec_display_cut hs hbufs hbuf hw hok hf,
      exec_display_cut (s := x.put s) (Hidden.put_linked hs) (by simpa using hbufs) hbuf hw (by simpa using hok)
        (by simpa using hf)]
    cases x <;> rfl

theorem wire_unread (x : Hidden) (v : Wire) (s : State) : x.Unread v.instr s := by
  unfold Hidden.Unread
  rcases wire_conditions v s with ⟨f, hf⟩ | ⟨c, hs, hok | ⟨j, w, hw, hok, hf⟩⟩
  · rw [exec_wire_fault hf, exec_wire_fault (s := x.put s) (by simpa using hf)]
  · rw [exec_wire_ok hs hok, exec_wire_ok (s := x.put s) (Hidden.put_addressed hs) (by simpa using hok)]
    cases x <;> rfl
  · rw [exec_wire_cut hs hw hok hf,
      exec_wire_cut (s := x.put s) (Hidden.put_addressed hs) (by simpa using hw) (by simpa using hok) (by simpa using hf)]
    cases x <;> rfl

theorem sInit_unread (x : Hidden) (s : State) : x.Unread .sInit s := by
  unfold Hidden.Unread
  by_cases hs : s.sns = .uninitialized
  · cases hw : s.busWriteAnswer Config.sensorAddr [0xE1#8, 0x08#8, 0x00#8] with
    | true =>
      rw [initSucceeds s hs hw, initSucceeds (x.put s) (by simpa using hs) (by simpa using hw)]
      cases x <;> rfl
    | false =>
      rw [initFails s hs hw, initFails (x.put s) (by simpa using hs) (by simpa using hw)]
      cases x <;> rfl
  · rw [(sensorOperationsRefused s).1 hs, (sensorOperationsRefused (x.put s)).1 (by simpa using hs)]
    cases x <;> rfl

theorem sMeasure_unread (x : Hidden) (s : State) : x.Unread .sMeasure s := by
  unfold Hidden.Unread
  rcases measure_conditions s with hs | ⟨hs, hw | ⟨hw, hr | ⟨r, hr, hcal | hcal⟩⟩⟩
  · rw [(sensorOperationsRefused s).2 hs, (sensorOperationsRefused (x.put s)).2 (by simpa using hs)]
    cases x <;> rfl
  · rw [(measureBusFails s hs).1 hw, (measureBusFails (x.put s) (by simpa using hs)).1 (by simpa using hw)]
    cases x <;> rfl
  · rw [(measureBusFails s hs).2 hw hr,
      (measureBusFails (x.put s) (by simpa using hs)).2 (by simpa using hw) (by simpa using hr)]
    cases x <;> rfl
  · rw [measureGivesReading s r hs hw hr hcal,
      measureGivesReading (x.put s) r (by simpa using hs) (by simpa using hw) (by simpa using hr) hcal]
    cases x <;> rfl
  · rw [measureUncalibrated s r hs hw hr hcal,
      measureUncalibrated (x.put s) r (by simpa using hs) (by simpa using hw) (by simpa using hr) hcal]
    cases x <;> rfl

theorem twCmdInit_unread (x : Hidden) (s : State) : x.Unread .twCmdInit s := by
  unfold Hidden.Unread
  cases hw : s.busWriteAnswer Config.sensorAddr [0xE1#8, 0x08#8, 0x00#8] with
  | true =>
    rw [(sensorCommandsWriteThreeBytes s).1 hw, (sensorCommandsWriteThreeBytes (x.put s)).1 (by simpa using hw)]
    cases x <;> rfl
  | false =>
    rw [(sensorCommandsFail s).1 hw, (sensorCommandsFail (x.put s)).1 (by simpa using hw)]
    cases x <;> rfl

theorem twCmdTrigger_unread (x : Hidden) (s : State) : x.Unread .twCmdTrigger s := by
  unfold Hidden.Unread
  cases hw : s.busWriteAnswer Config.sensorAddr [0xAC#8, 0x33#8, 0x00#8] with
  | true =>
    rw [(sensorCommandsWriteThreeBytes s).2 hw, (sensorCommandsWriteThreeBytes (x.put s)).2 (by simpa using hw)]
    cases x <;> rfl
  | false =>
    rw [(sensorCommandsFail s).2 hw, (sensorCommandsFail (x.put s)).2 (by simpa using hw)]
    cases x <;> rfl

theorem reply_unread (x : Hidden) (r : Reply) (s : State) : x.Unread (.r48Calibrated r) s := by
  unfold Hidden.Unread
  rw [(exec_reply r s).2, (exec_reply r (x.put s)).2]
  split <;> cases x <;> rfl

/-- No instruction reads the observer or what an earlier operation left in its registers. -/
theorem exec_unread (x : Hidden) (i : Instr) (s : State) : x.Unread i s := by
  induction i using instr_families with
  | hnew n level => exact new_unread x n level s
  | hdisplay i hi => exact display_unread x hi s
  | hwire v => exact wire_unread x v s
  | hnoop =>
    unfold Hidden.Unread
    rw [noopChangesNothing s, noopChangesNothing (x.put s)]
    cases x <;> rfl
  | hsensor i hi =>
    cases i with
    | sInit => exact sInit_unread x s
    | sMeasure => exact sMeasure_unread x s
    | twCmdInit => exact twCmdInit_unread x s
    | twCmdTrigger => exact twCmdTrigger_unread x s
    | r48Calibrated r | r48Uncalibrated r => exact reply_unread x r s
    | _ => exact absurd hi (by simp [touchesLink])

/-- Settles O53. -/
theorem observerNeverRead : Obligations.ObserverNeverRead := fun i s o => exec_unread (.modules o) i s

/-- Settles O54. -/
theorem oldRegistersNeverRead : Obligations.OldRegistersNeverRead := fun i s r => exec_unread (.scratch r) i s

end Sys2Proof.Machine
end

section
/-! The reference receiver (41_display_wire_commands R140 to R146): what one frame of a wire command, and then the frames of a
whole operation, leave of the modules; and the obligations O55 to O57 and O60. -/

namespace Sys2Proof.Machine

/-! ### One frame -/

/-- What a module does with a wire command addressed to it (41 R144). -/
def Wire.apply (v : Wire) (m : MatrixModule) : MatrixModule :=
  match v with
  | .row r d => { m with rows := m.rows.set r.val (some d) }
  | .decodeRaw => { m with decode := some 0x00#8 }
  | .intensity level => { m with intensity := some (level.extractLsb' 0 4) }
  | .powerOn => { m with power := some true }

/-- The word of a wire command is one that does not end the observation, and a module takes it as the command says. -/
theorem Wire.takeWord_eq_apply (v : Wire) (m : MatrixModule) : sendable v.sel v.dat ∧ m.takeWord v.sel v.dat = v.apply m := by
  have hrow : ∀ r : Fin 8, ((Config.opRow r.val).extractLsb' 0 4).toNat ≤ 10 := by decide
  cases v with
  | row r d => exact ⟨.inl (hrow r), by fin_cases r <;> rfl⟩
  | decodeRaw => exact ⟨.inl (by decide), rfl⟩
  | intensity level => exact ⟨.inl (show 10 ≤ 10 from Nat.le_refl _), rfl⟩
  | powerOn => exact ⟨.inr ⟨by decide, by decide⟩, rfl⟩

/-- The word a module of the chain takes from a frame: the command at its position, a no-operation elsewhere
(40_serial_port R115, 41 R143). -/
theorem applyWord_wireBuffer {n i k : Nat} (v : Wire) (hi : i < n) (hk : k < n) (m : MatrixModule) :
    applyWord (wordBits n k (sentBits (wireBuffer n i v.sel v.dat))) m = some (if k = i then v.apply m else m) := by
  obtain ⟨hsend, htake⟩ := v.takeWord_eq_apply m
  rw [wordBits_sentBits (wireBuffer_length n i v.sel v.dat) hk]
  by_cases hki : k = i
  · subst hki
    have hsel : (wireBuffer n k v.sel v.dat).getD (2 * k) 0 = v.sel := by
      rw [(wordPlacedAtPosition n k v.sel v.dat _ hi).2, if_pos rfl]
    have hdat : (wireBuffer n k v.sel v.dat).getD (2 * k + 1) 0 = v.dat := by
      rw [(wordPlacedAtPosition n k v.sel v.dat _ hi).2, if_neg (by omega), if_pos rfl]
    rw [hsel, hdat, applyWord_bytes m hsend, htake, if_pos rfl]
  · have hzero (b : Nat) (hb : b = 2 * k ∨ b = 2 * k + 1) : (wireBuffer n i v.sel v.dat).getD b 0 = 0x00#8 := by
      rw [(wordPlacedAtPosition n i v.sel v.dat b hi).2, if_neg (by omega), if_neg (by omega)]
    rw [hzero _ (.inl rfl), hzero _ (.inr rfl), applyWord_bytes m (.inl (by decide)), if_neg hki]
    rfl

/-- One whole frame of a wire command, where the observer follows: the module at its position takes the command, the others
nothing, and nothing is in doubt after it. -/
theorem watch_wireFrame {n i : Nat} {o : Observer} (v : Wire) (hs : o.stuck = false) (hc : o.clk = .low) (hi : i < n) :
    ∃ data chain, o.watch n (frameEvents (wireBuffer n i v.sel v.dat)) =
      { o with data := data, cs := .high, chain := chain, mods := o.mods.modify i v.apply, doubt := none } := by
  have hlatch : latchFrom n false (sentBits (wireBuffer n i v.sel v.dat)) 0 o.mods = some (o.mods.modify i v.apply) := by
    rw [latchFrom_of_words (f := fun k m => if k = i then v.apply m else m) (fun k hk m => applyWord_wireBuffer v hi hk m)
      (fun k m hk => if_neg (by omega))]
    refine congrArg some (List.ext_getElem? fun k => ?_)
    rw [List.getElem?_mapIdx, List.getElem?_modify, Nat.zero_add, Option.map_eq_map]
    simp only [eq_comm]
  obtain ⟨data, hwatch⟩ := watch_frame hs hc (Nat.zero_lt_of_lt hi) (wireBuffer_length n i v.sel v.dat) hlatch
  exact ⟨data, _, hwatch⟩

/-- Settles O60. -/
theorem completeFrameReceived : Obligations.CompleteFrameReceived := by
  intro n i r d o hi ⟨hs, hc, hn, hrows⟩
  obtain ⟨data, chain, hwatch⟩ := watch_wireFrame (.row r d) hs hc hi
  rw [show wireBuffer n i (Wire.row r d).sel d = wireBuffer n i (Wire.row r d).sel (Wire.row r d).dat from rfl, hwatch]
  refine ⟨rfl, ⟨hs, hc, by simpa using hn, fun m hm => ?_⟩, rfl⟩
  obtain ⟨k, hk⟩ := List.mem_iff_getElem?.mp hm
  rw [List.getElem?_modify, Option.map_eq_map, Option.map_eq_some_iff] at hk
  obtain ⟨m', hm', rfl⟩ := hk
  split
  · simpa [Wire.apply] using hrows m' (List.mem_of_getElem? hm')
  · exact hrows m' (List.mem_of_getElem? hm')

/-! ### The frames of an operation -/

/-- The modules after the wire commands of an operation. -/
def sentTo (ws : List Send) (ms : List MatrixModule) : List MatrixModule :=
  ws.foldl (fun ms w => ms.modify w.i w.wire.apply) ms

theorem sentTo_append (a b : List Send) (ms : List MatrixModule) : sentTo (a ++ b) ms = sentTo b (sentTo a ms) := by
  simp [sentTo]

/-- All frames of an operation, where the observer follows. -/
theorem watch_sends {n : Nat} {ws : List Send} {o : Observer} (hs : o.stuck = false) (hc : o.clk = .low)
    (hws : ∀ w ∈ ws, w.i < n) :
    (o.watch n (framesEvents (sendBuffers n ws))).stuck = false ∧ (o.watch n (framesEvents (sendBuffers n ws))).clk = .low ∧
      (o.watch n (framesEvents (sendBuffers n ws))).mods = sentTo ws o.mods := by
  induction ws generalizing o with
  | nil => exact ⟨hs, hc, rfl⟩
  | cons w ws ih =>
    have hsplit : framesEvents (sendBuffers n (w :: ws)) =
        frameEvents (wireBuffer n w.i w.wire.sel w.wire.dat) ++ framesEvents (sendBuffers n ws) := rfl
    obtain ⟨data, chain, hwatch⟩ := watch_wireFrame w.wire hs hc (hws w List.mem_cons_self)
    rw [hsplit, Observer.watch_append, hwatch]
    exact ih hs hc fun v hv => hws v (List.mem_cons_of_mem w hv)

theorem eachModule_position {p : Phase} {v : Wire} {n : Nat} : ∀ w ∈ eachModule p v n, w.i < n := by
  intro w hw
  obtain ⟨i, hi, rfl⟩ := List.mem_map.mp hw
  exact List.mem_range.mp hi

theorem eachRow_position {p : Phase} {d : Nat → Nat → Byte} {n : Nat} : ∀ w ∈ eachRow p d n, w.i < n := by
  intro w hw
  obtain ⟨i, hi, hw⟩ := List.mem_flatMap.mp hw
  obtain ⟨r, -, rfl⟩ := List.mem_map.mp hw
  exact List.mem_range.mp hi

/-- Changing each of the first `n` entries of a list, one after another. -/
theorem getElem?_foldl_modify {α : Type} (g : Nat → α → α) (n : Nat) (l : List α) (k : Nat) :
    ((List.range n).foldl (fun l i => l.modify i (g i)) l)[k]? = if k < n then l[k]?.map (g k) else l[k]? := by
  induction n with
  | zero => rfl
  | succ n ih =>
    rw [List.range_succ, List.foldl_append, List.foldl_cons, List.foldl_nil, List.getElem?_modify, ih, Option.map_eq_map]
    rcases Nat.lt_trichotomy k n with hlt | rfl | hgt
    · rw [if_pos hlt, if_pos (by omega)]
      cases l[k]? <;> simp [show n ≠ k by omega]
    · simp
    · rw [if_neg (by omega), if_neg (by omega)]
      simp [show n ≠ k by omega]

/-- Changing one entry of a list several times. -/
theorem foldl_modify_same {α β : Type} (g : β → α → α) (i : Nat) (l : List β) (as : List α) :
    l.foldl (fun as b => as.modify i (g b)) as = as.modify i fun a => l.foldl (fun a b => g b a) a := by
  induction l generalizing as with
  | nil => exact (List.modify_id i as).symm
  | cons b l ih => rw [List.foldl_cons, ih, List.modify_modify_eq]; rfl

/-- One command for each module of the chain. -/
theorem getElem?_sentTo_eachModule (p : Phase) (v : Wire) (n : Nat) (ms : List MatrixModule) (k : Nat) :
    (sentTo (eachModule p v n) ms)[k]? = if k < n then ms[k]?.map v.apply else ms[k]? := by
  rw [sentTo, eachModule, List.foldl_map]
  exact getElem?_foldl_modify (fun _ => v.apply) n ms k

/-- A module after its eight row writes, row bytes `d`. -/
def MatrixModule.withRows (d : Nat → Byte) (m : MatrixModule) : MatrixModule :=
  { m with rows := (List.range 8).map fun r => some (d r) }

theorem foldl_rows (d : Nat → Byte) {m : MatrixModule} (hm : m.rows.length = 8) :
    (List.finRange 8).foldl (fun m r => (Wire.row r (d r.val)).apply m) m = m.withRows d := by
  rcases m with ⟨rows, decode, intensity, power⟩
  match rows, hm with
  | [_, _, _, _, _, _, _, _], _ => rfl

/-- Eight row writes for each module of the chain. -/
theorem getElem?_sentTo_eachRow (p : Phase) (d : Nat → Nat → Byte) (n : Nat) {ms : List MatrixModule}
    (hms : ∀ m ∈ ms, m.rows.length = 8) (k : Nat) :
    (sentTo (eachRow p d n) ms)[k]? = if k < n then ms[k]?.map (MatrixModule.withRows (d k)) else ms[k]? := by
  have hmodules : sentTo (eachRow p d n) ms = (List.range n).foldl (fun ms i => ms.modify i fun m =>
      (List.finRange 8).foldl (fun m r => (Wire.row r (d i r.val)).apply m) m) ms := by
    rw [sentTo, eachRow, List.foldl_flatMap]
    simp only [List.foldl_map]
    exact congrArg (fun f => (List.range n).foldl f ms) (funext fun ms => funext fun i =>
      foldl_modify_same (fun (r : Fin 8) => (Wire.row r (d i r.val)).apply) i (List.finRange 8) ms)
  rw [hmodules, getElem?_foldl_modify]
  refine if_congr Iff.rfl ?_ rfl
  cases hk : ms[k]? with
  | none => rfl
  | some m => exact congrArg some (foldl_rows (d k) (hms m (List.mem_of_getElem? hk)))

end Sys2Proof.Machine
end

section
/-! The image after an operation of the host (41_display_wire_commands R145, R146, 42_display_operations R169), through the
reference receiver; and the obligations O55 to O57. -/

namespace Sys2Proof.Machine

/-! ### Row writes to the whole chain -/

/-- Row frames for the whole chain, where the observer follows: each module of the chain has its rows, and nothing else
changed. -/
theorem watch_rowFrames {n : Nat} {o : Observer} (d : Nat → Nat → Byte) (ho : o.canFollow n) :
    (o.watch n (framesEvents (rowFrames n d))).stuck = false ∧
      ∀ k, (o.watch n (framesEvents (rowFrames n d))).mods[k]? =
        if k < n then o.mods[k]?.map (MatrixModule.withRows (d k)) else o.mods[k]? := by
  obtain ⟨hs, hc, -, hrows⟩ := ho
  obtain ⟨hstuck, -, hmods⟩ := watch_sends (ws := eachRow .none d n) hs hc eachRow_position
  rw [← sendBuffers_eachRow n .none d]
  refine ⟨hstuck, fun k => ?_⟩
  rw [hmods, getElem?_sentTo_eachRow _ _ _ hrows]

/-- Settles O57. -/
theorem clearBlanksTheModules : Obligations.ClearBlanksTheModules := by
  intro s c hd hc hl _ hok hfollow
  refine ⟨_, clearSucceeds s c hd hc hl hok, ?_⟩
  show (s.modules.watch s.moduleCount (framesEvents (clearFrames c.n))).mods = _
  rw [State.moduleCount_of_cfg hc]
  have hlen : ((s.modules.mods.take c.n).map MatrixModule.blanked).length = c.n := by
    simpa using hfollow.2.2.1
  refine List.ext_getElem? fun k => ?_
  rw [clearFrames, (watch_rowFrames _ hfollow).2 k]
  split
  next hk =>
    rw [List.getElem?_append_left (by rwa [hlen]), List.getElem?_map, List.getElem?_take_of_lt hk]
    rfl
  next hk =>
    rw [List.getElem?_append_right (by omega), hlen, List.getElem?_drop, Nat.add_sub_cancel' (by omega)]

/-! ### The image -/

/-- The image of a chain is defined when the observer follows and every module of the chain is on and in raw mode
(41 R145). -/
theorem imageDefined_iff {n : Nat} {o : Observer} :
    o.imageDefined n = true ↔
      o.stuck = false ∧ ∀ k, k < n → ∃ m, o.mods[k]? = some m ∧ m.power = some true ∧ m.decode = some 0x00#8 := by
  simp only [Observer.imageDefined, Bool.and_eq_true, Bool.not_eq_true', decide_eq_true_eq, List.all_eq_true, and_assoc]
  refine and_congr_right fun _ => ⟨fun ⟨hn, hall⟩ k hk => ?_, fun hmods => ⟨?_, fun m hm => ?_⟩⟩
  · have hlt : k < o.mods.length := by omega
    refine ⟨o.mods[k], List.getElem?_eq_getElem hlt, hall _ (List.mem_iff_getElem?.mpr ⟨k, ?_⟩)⟩
    rw [List.getElem?_take_of_lt hk, List.getElem?_eq_getElem hlt]
  · by_contra hlt
    obtain ⟨m, hm, -⟩ := hmods o.mods.length (by omega)
    simp at hm
  · obtain ⟨k, hk⟩ := List.mem_iff_getElem?.mp hm
    rw [List.getElem?_take] at hk
    split at hk
    next hlt =>
      obtain ⟨m', hm', hon⟩ := hmods k hlt
      cases hm'.symm.trans hk
      exact hon
    next => cases hk

/-- A pixel of a module that is on and in raw mode is its bit of the row (41 R145). -/
theorem lit_of_row {n x y : Nat} {o : Observer} {m : MatrixModule} {d : Byte} (hdef : o.imageDefined n = true)
    (hm : o.mods[x / 8]? = some m) (hrow : m.rows[y]? = some (some d)) : o.lit n x y = some (d.getLsbD (7 - x % 8)) := by
  simp only [Observer.lit, hdef, if_true, List.getD_eq_getElem?_getD, hm, hrow, Option.getD_some, Option.map_some]

/-- Settles O55. -/
theorem imageAfterDraw : Obligations.ImageAfterDraw := by
  intro s c hd hc hl _ hok hfollow hdef
  refine ⟨_, drawSucceeds s c hd hc hl hok, fun x y hx hy => ?_⟩
  show (s.modules.watch s.moduleCount (framesEvents (drawFrames c.n s.pixels))).lit c.n x y = _
  rw [State.moduleCount_of_cfg hc, drawFrames]
  obtain ⟨hstuck, hmods⟩ := watch_rowFrames (rowByte s.pixels) hfollow
  obtain ⟨-, hon⟩ := imageDefined_iff.mp hdef
  have hdrawn (k : Nat) (hk : k < c.n) : ∃ m : MatrixModule, m.power = some true ∧ m.decode = some 0x00#8 ∧
      (s.modules.watch c.n (framesEvents (rowFrames c.n (rowByte s.pixels)))).mods[k]? =
        some (m.withRows (rowByte s.pixels k)) := by
    obtain ⟨m, hm, hpower, hdecode⟩ := hon k hk
    exact ⟨m, hpower, hdecode, by rw [hmods k, if_pos hk, hm]; rfl⟩
  have hdefined : (s.modules.watch c.n (framesEvents (rowFrames c.n (rowByte s.pixels)))).imageDefined c.n = true := by
    refine imageDefined_iff.mpr ⟨hstuck, fun k hk => ?_⟩
    obtain ⟨m, hpower, hdecode, hm⟩ := hdrawn k hk
    exact ⟨_, hm, hpower, hdecode⟩
  obtain ⟨m, -, -, hm⟩ := hdrawn (x / 8) (by omega)
  have hrow : (m.withRows (rowByte s.pixels (x / 8))).rows[y]? = some (some (rowByte s.pixels (x / 8) y)) := by
    simp [MatrixModule.withRows, hy]
  have hbit := getLsbD_rowByte s.pixels (x / 8) y (Nat.mod_lt x (by decide : 0 < 8))
  rw [Nat.mod_add_div] at hbit
  rw [lit_of_row hdefined hm hrow]
  exact congrArg some (Bool.eq_iff_iff.mpr (hbit.trans (decide_eq_true_iff).symm))

/-! ### NEW -/

/-- The claims of NEW set the levels the observer sees, and nothing else of it. -/
theorem watch_claims (n : Nat) (o : Observer) :
    (o.watch n claimEvents).stuck = o.stuck ∧ (o.watch n claimEvents).clk = .low ∧ (o.watch n claimEvents).mods = o.mods :=
  ⟨rfl, rfl, rfl⟩

theorem newSends_position {n : Nat} {level : Byte} : ∀ w ∈ newSends n level, w.i < n := by
  intro w hw
  simp only [newSends, List.mem_append] at hw
  rcases hw with ((hw | hw) | hw) | hw
  · exact eachModule_position w hw
  · exact eachModule_position w hw
  · exact eachRow_position w hw
  · exact eachModule_position w hw

/-- One command for each module, if it writes no row, keeps the length of every module's rows. -/
theorem rows_length_sentTo_eachModule {p : Phase} {v : Wire} {n : Nat} {ms : List MatrixModule}
    (hv : ∀ m : MatrixModule, (v.apply m).rows = m.rows) (hms : ∀ m ∈ ms, m.rows.length = 8) :
    ∀ m ∈ sentTo (eachModule p v n) ms, m.rows.length = 8 := by
  intro m hm
  obtain ⟨k, hk⟩ := List.mem_iff_getElem?.mp hm
  rw [getElem?_sentTo_eachModule] at hk
  split at hk
  · obtain ⟨m', hm', rfl⟩ := Option.map_eq_some_iff.mp hk
    rw [hv]
    exact hms m' (List.mem_of_getElem? hm')
  · exact hms m (List.mem_of_getElem? hk)

/-- A module of the chain after the four phases of NEW. -/
theorem getElem?_sentTo_newSends {n k : Nat} {level : Byte} {ms : List MatrixModule} (hms : ∀ m ∈ ms, m.rows.length = 8)
    (hk : k < n) (hlen : n ≤ ms.length) :
    (sentTo (newSends n level) ms)[k]? =
      some ⟨List.replicate 8 (some 0x00#8), some 0x00#8, some (level.extractLsb' 0 4), some true⟩ := by
  have hpower := rows_length_sentTo_eachModule (p := .power) (v := .powerOn) (n := n) (fun _ => rfl) hms
  have hdecode := rows_length_sentTo_eachModule (p := .decode) (v := .decodeRaw) (n := n) (fun _ => rfl) hpower
  have hmodule : ms[k]? = some ms[k] := List.getElem?_eq_getElem (Nat.lt_of_lt_of_le hk hlen)
  rw [newSends, sentTo_append, sentTo_append, sentTo_append, getElem?_sentTo_eachModule, if_pos hk,
    getElem?_sentTo_eachRow _ _ _ hdecode, if_pos hk, getElem?_sentTo_eachModule, if_pos hk, getElem?_sentTo_eachModule,
    if_pos hk, hmodule]
  rfl

/-- Settles O56. -/
theorem blankAfterNew : Obligations.BlankAfterNew := by
  intro n level s hd h1 h16 hok hstuck hlen hrows
  refine ⟨_, newSucceeds n level s hd h1 h16 hok, fun i hi => ?_⟩
  show ((s.modules.watch n claimEvents).watch n (framesEvents (newFrames n level))).mods[i]? = _
  obtain ⟨hs, hc, hmods⟩ := watch_claims n s.modules
  obtain ⟨-, -, hsent⟩ := watch_sends (hs.trans hstuck) hc (newSends_position (n := n) (level := level))
  rw [← sendBuffers_newSends, hsent, hmods]
  exact getElem?_sentTo_newSends hrows hi hlen

end Sys2Proof.Machine
end
